-- ==== Sys2Proof/Word.lean ====
section
/-! DEFINITION. The word types of the BOBBER SBUS core: the widths of spec/10_state.md R20, spec/20_memory.md R40 and
spec/30_encoding.md R60. -/

namespace Sys2Proof

/-- One byte of a wire frame (20_memory R40, frame byte space). -/
abbrev Byte := BitVec 8

/-- One channel register: 11 bits (10_state R21). -/
abbrev Chan := BitVec 11

/-- The 16 channel registers `ch[0..15]` (10_state R21). -/
abbrev Bank := Vector Chan 16

/-- One 25-byte SBUS frame, byte 0 first (30_encoding R61). -/
abbrev Frame := Vector Byte 25

/-- A command and event word, format CMD: 32 bits (30_encoding R64). -/
abbrev CmdWord := BitVec 32

/-- A phase code, format PHASE: 4 bits (30_encoding R60, 10_state R25). -/
abbrev PhaseCode := BitVec 4

/-- A code word of the opcode table, with the format it belongs to (30_encoding R70). -/
inductive CodeWord where
  | cmd (w : CmdWord)
  | phase (c : PhaseCode)
deriving DecidableEq, Repr

end Sys2Proof
end

