-- ==== Sys2Proof/Config.lean ====
section
/-! DEFINITION. The parameters spec/00_scope.md R8 asks a model to take as named configuration fields, and what makes a
configuration a legal one. Their default values are `Config.default` in Sys2Proof/Machine/Params.lean. -/

namespace Sys2Proof

/-- The parameters of 00_scope R7 and R8. No operation changes them: a machine has one configuration for ever. -/
structure Config where
  /-- `CH_ROLL`: the channel index written when the phase table says roll (D1). -/
  roll : Fin 16
  /-- `CH_PITCH` (D1). -/
  pitch : Fin 16
  /-- `CH_THROTTLE` (D1). -/
  throttle : Fin 16
  /-- `CH_YAW` (D1). -/
  yaw : Fin 16
  /-- `CH_AUX1` (D1). -/
  aux1 : Fin 16
  /-- `CH_AUX2` (D1). -/
  aux2 : Fin 16
  /-- `RAMP_N`: how many throttle values each ramp has (D9). -/
  rampN : Nat
  /-- `LED_DIV_NEUTRAL` (D18). -/
  ledDivNeutral : Nat
  /-- `LED_DIV_HOLD` (D18). -/
  ledDivHold : Nat
  /-- `FAULT_TRANSPORT`: the cause code the `fault` output shows for TransportFailed (D13). -/
  faultTransport : BitVec 1
  /-- `TICK_PERIOD_MS`: informational, no rule reads it (R7). -/
  tickPeriodMs : Nat
  /-- `IDX_W`: width of the signed index operand of SET and GET (D4). -/
  idxW : Nat
  /-- `RAW_W`: width of the signed raw-value operand of SET (D4). -/
  rawW : Nat
deriving DecidableEq, Repr

/-- The six role indices, in the order the Neutral row names them (10_state R23). -/
def Config.roles (c : Config) : List (Fin 16) :=
  [c.roll, c.pitch, c.throttle, c.yaw, c.aux1, c.aux2]

/-- A legal configuration. "The six role indices must be pairwise distinct and each in 0..15" (00_scope R8; the range is
the type's). The ramps have at least one value and no more than the values `172 + 5k` below 1400 (D9: RAMP_N is their
number). The LED divisors are not zero. TransportFailed has a cause code other than 0, the code of no fault (R142).
The operands have at least one bit and fit the fields `idx` and `dat` of format CMD, 8 and 16 bits (30_encoding R64).
The bounds other than R8's are the model's (log entries 4 and 5). -/
abbrev Config.Legal (c : Config) : Prop :=
  c.roles.Nodup ∧ 1 ≤ c.rampN ∧ 172 + 5 * (c.rampN - 1) < 1400 ∧ 0 < c.ledDivNeutral ∧ 0 < c.ledDivHold ∧
    c.faultTransport ≠ 0#1 ∧ 1 ≤ c.idxW ∧ c.idxW ≤ 8 ∧ 1 ≤ c.rawW ∧ c.rawW ≤ 16

end Sys2Proof
end

