-- ==== Sys2Proof/Machine/Params.lean ====
section
/-! DEFINITION. The constants of spec/00_scope.md R5 and the default parameters of R8. -/

namespace Sys2Proof

/-- `CH_MIN` (R5). -/
@[simp] def chMin : Int := 172
/-- `CH_MID` (R5): center, and the default of every channel. -/
@[simp] def chMid : Int := 992
/-- `CH_MAX` (R5). -/
@[simp] def chMax : Int := 1811
/-- `THR_TOP` (R5): the throttle of ThrottleHold and bound of both ramps. -/
@[simp] def thrTop : Int := 1400
/-- `RAMP_STEP` (R5). -/
@[simp] def rampStep : Int := 5
/-- `RAMP_HOLD` (R5): the ticks each ramp value is held. -/
@[simp] def rampHold : Nat := 5
/-- `START_BYTE` (R5). -/
@[simp] def startByte : Byte := 0x0F
/-- `FLAG_BYTE` (R5). -/
@[simp] def flagByte : Byte := 0x00
/-- `END_BYTE` (R5). -/
@[simp] def endByte : Byte := 0x00

/-- The defaults of 00_scope R7 and R8. -/
def Config.default : Config where
  roll := 0
  pitch := 1
  throttle := 2
  yaw := 3
  aux1 := 4
  aux2 := 5
  rampN := 246
  ledDivNeutral := 10
  ledDivHold := 20
  faultTransport := 1
  tickPeriodMs := 14
  idxW := 8
  rawW := 16

end Sys2Proof
end

