-- ==== Sys2Proof/Syntax.lean ====
section
/-! DEFINITION. The instructions: one constructor per row of spec/opcode_table.json (eight CMD rows, ten PHASE rows). -/

namespace Sys2Proof

/-- The ten phases, in the fixed order of 10_state R25. -/
inductive Phase where
  | neutral
  | arming
  | armedHold
  | throttleRampUp
  | throttleHold
  | throttleRampDown
  | throttleFloorHold
  | disarming
  | disarmedHold
  | done
deriving DecidableEq, Repr

/-- The transport's answer to the Submit of a TICK (30_encoding R67, 60_exceptions R141). -/
inductive Answer where
  | ok
  | fail
deriving DecidableEq, Repr

/-- The rows of the opcode table. Operands of `set` and `get` are integers: "the operations are defined on all integers
..., so a model may give SET integer operands and ignore the field widths" (30_encoding R65). -/
inductive Instr where
  | nop
  | set (i v : Int)
  | get (i : Int)
  | snapshot
  | encode
  | start
  | tick (a : Answer)
  | reset
  | phaseNeutral
  | phaseArming
  | phaseArmedHold
  | phaseThrottleRampUp
  | phaseThrottleHold
  | phaseThrottleRampDown
  | phaseThrottleFloorHold
  | phaseDisarming
  | phaseDisarmedHold
  | phaseDone
deriving DecidableEq, Repr

end Sys2Proof
end

