-- ==== Sys2Proof/WellFormed.lean ====
section
/-! DEFINITION. Which instructions the CMD and PHASE formats can present: the operand widths of spec/00_scope.md R8. -/

namespace Sys2Proof

/-- `x` is a `w`-bit two's-complement value, `w ≥ 1` (30_encoding R65). -/
def fitsSigned (w : Nat) (x : Int) : Bool :=
  decide (-(2 : Int) ^ (w - 1) ≤ x ∧ x < (2 : Int) ^ (w - 1))

/-- An instruction a machine with the parameters `c` can be presented: an index of `IDX_W` bits, a raw value of `RAW_W`
bits. "The operand widths only limit what can be presented, never what a rule computes" (00_scope R10). -/
def wellFormed (c : Config) : Instr → Bool
  | .nop => true
  | .set i v => fitsSigned c.idxW i && fitsSigned c.rawW v
  | .get i => fitsSigned c.idxW i
  | .snapshot => true
  | .encode => true
  | .start => true
  | .tick _ => true
  | .reset => true
  | .phaseNeutral => true
  | .phaseArming => true
  | .phaseArmedHold => true
  | .phaseThrottleRampUp => true
  | .phaseThrottleHold => true
  | .phaseThrottleRampDown => true
  | .phaseThrottleFloorHold => true
  | .phaseDisarming => true
  | .phaseDisarmedHold => true
  | .phaseDone => true

end Sys2Proof
end

