-- ==== Sys2Proof/Decode.lean ====
section
/-! DEFINITION. Decoder and encoder of the CMD and PHASE formats (spec/30_encoding.md R64 to R70, spec/10_state.md R25). -/

namespace Sys2Proof

/-- Why a code word is illegal (30_encoding R68; a phase code 10 to 15: 10_state R25). -/
inductive DecodeError where
  /-- `op` is 0x7 to 0xE. -/
  | reservedOp (op : BitVec 4)
  /-- `z` is not 0. -/
  | zNotZero
  /-- `idx` is not 0 where the operation has no index. -/
  | idxNotZero
  /-- `dat` has a bit set that R66 says is 0. -/
  | datNotZero
  /-- The operand does not fit IDX_W or RAW_W bits: never with the widths 8 and 16 of the fields (log entry 5). -/
  | operandTooWide
  /-- The phase code is 10 to 15. -/
  | reservedPhase (c : PhaseCode)
deriving DecidableEq, Repr

/-! ### Fields of a CMD word (30_encoding R64) -/

/-- `op`, bits 31:28. -/
def opField (w : CmdWord) : BitVec 4 := w.extractLsb' 28 4
/-- `z`, bits 27:24. -/
def zField (w : CmdWord) : BitVec 4 := w.extractLsb' 24 4
/-- `idx`, bits 23:16. -/
def idxField (w : CmdWord) : BitVec 8 := w.extractLsb' 16 8
/-- `dat`, bits 15:0. -/
def datField (w : CmdWord) : BitVec 16 := w.extractLsb' 0 16

/-- A CMD word from its four fields, `op` in the most significant place: each field shifted to its lowest bit. -/
def cmdWord (op z : BitVec 4) (idx : BitVec 8) (dat : BitVec 16) : CmdWord :=
  BitVec.ofNat 32 (op.toNat * 2 ^ 28 + z.toNat * 2 ^ 24 + idx.toNat * 2 ^ 16 + dat.toNat)

/-! ### Phase codes (10_state R25) -/

/-- "The code of each phase is its place in that order." -/
def Phase.code : Phase → PhaseCode
  | .neutral => 0
  | .arming => 1
  | .armedHold => 2
  | .throttleRampUp => 3
  | .throttleHold => 4
  | .throttleRampDown => 5
  | .throttleFloorHold => 6
  | .disarming => 7
  | .disarmedHold => 8
  | .done => 9

/-- The phase of a code. Codes 10 to 15 name no phase. -/
def phaseOfCode (c : PhaseCode) : Option Phase :=
  match c.toNat with
  | 0 => some .neutral
  | 1 => some .arming
  | 2 => some .armedHold
  | 3 => some .throttleRampUp
  | 4 => some .throttleHold
  | 5 => some .throttleRampDown
  | 6 => some .throttleFloorHold
  | 7 => some .disarming
  | 8 => some .disarmedHold
  | 9 => some .done
  | _ => none

/-- The row of the phase table a phase selects, as an instruction. -/
def Phase.instr : Phase → Instr
  | .neutral => .phaseNeutral
  | .arming => .phaseArming
  | .armedHold => .phaseArmedHold
  | .throttleRampUp => .phaseThrottleRampUp
  | .throttleHold => .phaseThrottleHold
  | .throttleRampDown => .phaseThrottleRampDown
  | .throttleFloorHold => .phaseThrottleFloorHold
  | .disarming => .phaseDisarming
  | .disarmedHold => .phaseDisarmedHold
  | .done => .phaseDone

/-! ### Decoding -/

/-- An operation with neither index nor data: both fields must be 0 (30_encoding R66, R68). -/
def decodePlain (w : CmdWord) (i : Instr) : Except DecodeError Instr :=
  if idxField w ≠ 0 then .error .idxNotZero
  else if datField w ≠ 0 then .error .datNotZero
  else .ok i

/-- A TICK word: bit 0 of `dat` is the transport's answer, 0 for ok and 1 for fail; bits 15:1 must be 0 (R67, R68). -/
def decodeTick (w : CmdWord) : Except DecodeError Instr :=
  if idxField w ≠ 0 then .error .idxNotZero
  else if datField w = 0 then .ok (.tick .ok)
  else if datField w = 1 then .ok (.tick .fail)
  else .error .datNotZero

/-- An operation with an operand: it must fit the machine's operand widths (00_scope R8, R10; log entry 5). -/
def admitOperands (c : Config) (i : Instr) : Except DecodeError Instr :=
  if wellFormed c i then .ok i else .error .operandTooWide

/-- The CMD decoder of 30_encoding R70: take `op`, look it up, check the must-be-zero fields, extract
`i = sext_8(idx)` and `v = sext_16(dat)` (R65), which must fit the machine's operand widths. -/
def decodeCmd (c : Config) (w : CmdWord) : Except DecodeError Instr :=
  let op := opField w
  if 7 ≤ op.toNat ∧ op.toNat ≤ 14 then .error (.reservedOp op)
  else if zField w ≠ 0 then .error .zNotZero
  else match op.toNat with
    | 0 => decodePlain w .nop
    | 1 => admitOperands c (.set (idxField w).toInt (datField w).toInt)
    | 2 => if datField w ≠ 0 then .error .datNotZero else admitOperands c (.get (idxField w).toInt)
    | 3 => decodePlain w .snapshot
    | 4 => decodePlain w .encode
    | 5 => decodePlain w .start
    | 6 => decodeTick w
    | _ => decodePlain w .reset

/-- The PHASE decoder (10_state R25). -/
def decodePhase (c : PhaseCode) : Except DecodeError Instr :=
  match phaseOfCode c with
  | some p => .ok p.instr
  | none => .error (.reservedPhase c)

/-- The decoder of both formats of the opcode table. Total; an illegal word is rejected by name. -/
def decode (c : Config) : CodeWord → Except DecodeError Instr
  | .cmd w => decodeCmd c w
  | .phase p => decodePhase p

/-- The decoder on a row of spec/opcode_table.json: `nbits` is the row's width in whole bytes, 32 for a CMD row and 8 (or
the table's own 4) for a PHASE row, whose bits above 3 must be 0. The operand widths are the defaults. -/
def decodeTableWord (nbits w : Nat) : Option Instr :=
  if nbits = 32 ∧ w < 2 ^ 32 then (decodeCmd Config.default (BitVec.ofNat 32 w)).toOption
  else if (nbits = 8 ∨ nbits = 4) ∧ w < 16 then (decodePhase (BitVec.ofNat 4 w)).toOption
  else none

/-! ### Encoding -/

/-- Bit 0 of a TICK word (30_encoding R67). -/
def Answer.dat : Answer → BitVec 16
  | .ok => 0
  | .fail => 1

/-- The words of an instruction (30_encoding R66; the phase code for a PHASE row). -/
def encode : Instr → CodeWord
  | .nop => .cmd (cmdWord 0x0 0 0 0)
  | .set i v => .cmd (cmdWord 0x1 0 (BitVec.ofInt 8 i) (BitVec.ofInt 16 v))
  | .get i => .cmd (cmdWord 0x2 0 (BitVec.ofInt 8 i) 0)
  | .snapshot => .cmd (cmdWord 0x3 0 0 0)
  | .encode => .cmd (cmdWord 0x4 0 0 0)
  | .start => .cmd (cmdWord 0x5 0 0 0)
  | .tick a => .cmd (cmdWord 0x6 0 0 a.dat)
  | .reset => .cmd (cmdWord 0xF 0 0 0)
  | .phaseNeutral => .phase 0x0
  | .phaseArming => .phase 0x1
  | .phaseArmedHold => .phase 0x2
  | .phaseThrottleRampUp => .phase 0x3
  | .phaseThrottleHold => .phase 0x4
  | .phaseThrottleRampDown => .phase 0x5
  | .phaseThrottleFloorHold => .phase 0x6
  | .phaseDisarming => .phase 0x7
  | .phaseDisarmedHold => .phase 0x8
  | .phaseDone => .phase 0x9

/-! ### The opcode table as data (30_encoding R70) -/

/-- A row of the opcode table: a word belongs to it when its bits under `mask` are those of `pattern`. -/
structure TableRow (n : Nat) where
  mnemonic : String
  pattern : BitVec n
  mask : BitVec n
deriving DecidableEq, Repr

/-- The eight CMD rows of spec/opcode_table.json, `match` and `mask` as printed there. -/
def cmdRows : List (TableRow 32) :=
  [⟨"NOP", 0x00000000, 0xFFFFFFFF⟩, ⟨"SET", 0x10000000, 0xFF000000⟩, ⟨"GET", 0x20000000, 0xFF00FFFF⟩,
   ⟨"SNAPSHOT", 0x30000000, 0xFFFFFFFF⟩, ⟨"ENCODE", 0x40000000, 0xFFFFFFFF⟩, ⟨"START", 0x50000000, 0xFFFFFFFF⟩,
   ⟨"TICK", 0x60000000, 0xFFFFFFFE⟩, ⟨"RESET", 0xF0000000, 0xFFFFFFFF⟩]

/-- The ten PHASE rows of spec/opcode_table.json. -/
def phaseRows : List (TableRow 4) :=
  [⟨"PHASE.Neutral", 0x0, 0xF⟩, ⟨"PHASE.Arming", 0x1, 0xF⟩, ⟨"PHASE.ArmedHold", 0x2, 0xF⟩,
   ⟨"PHASE.ThrottleRampUp", 0x3, 0xF⟩, ⟨"PHASE.ThrottleHold", 0x4, 0xF⟩, ⟨"PHASE.ThrottleRampDown", 0x5, 0xF⟩,
   ⟨"PHASE.ThrottleFloorHold", 0x6, 0xF⟩, ⟨"PHASE.Disarming", 0x7, 0xF⟩, ⟨"PHASE.DisarmedHold", 0x8, 0xF⟩,
   ⟨"PHASE.Done", 0x9, 0xF⟩]

/-- A word matches a row. -/
def TableRow.accepts {n : Nat} (r : TableRow n) (w : BitVec n) : Bool := (w &&& r.mask) == r.pattern

/-- The mnemonic of an instruction's row, letter for letter as in spec/opcode_table.json. -/
def Instr.mnemonic : Instr → String
  | .nop => "NOP"
  | .set _ _ => "SET"
  | .get _ => "GET"
  | .snapshot => "SNAPSHOT"
  | .encode => "ENCODE"
  | .start => "START"
  | .tick _ => "TICK"
  | .reset => "RESET"
  | .phaseNeutral => "PHASE.Neutral"
  | .phaseArming => "PHASE.Arming"
  | .phaseArmedHold => "PHASE.ArmedHold"
  | .phaseThrottleRampUp => "PHASE.ThrottleRampUp"
  | .phaseThrottleHold => "PHASE.ThrottleHold"
  | .phaseThrottleRampDown => "PHASE.ThrottleRampDown"
  | .phaseThrottleFloorHold => "PHASE.ThrottleFloorHold"
  | .phaseDisarming => "PHASE.Disarming"
  | .phaseDisarmedHold => "PHASE.DisarmedHold"
  | .phaseDone => "PHASE.Done"

end Sys2Proof
end

