-- ==== Sys2Proof/Machine/State.lean ====
section
/-! DEFINITION. The state of the core (spec/10_state.md R20, R30), its interface (spec/30_encoding.md R73), and the
reasons a step can stop. -/

namespace Sys2Proof.Machine

/-- The result the operation just done drives on the core's outputs (30_encoding R73). Not architectural state: "None of
these is stored after the operation ends" (10_state R31); `step` clears it before each operation (log entry 3). -/
inductive Output where
  /-- No result output is driven. -/
  | idle
  /-- `rd_data`: the result of GET. -/
  | rdData (v : Chan)
  /-- `snap`: the result of SNAPSHOT, element `k` being `ch[k]`. -/
  | snap (b : Bank)
  /-- `enc_frame`: the result of ENCODE. -/
  | encFrame (f : Frame)
  /-- `tx_valid` raised with `tx_frame`: the frame submitted by the current TICK, whatever the transport answers. -/
  | txFrame (f : Frame)
deriving DecidableEq, Repr

/-- The inputs presented at one instant (30_encoding R73). -/
structure Pins where
  rst : Bool
  tick : Bool
  txFail : Bool
  cmdValid : Bool
  cmd : CmdWord
deriving DecidableEq, Repr

/-- THE STATE OF THE CORE: exactly the six fields of 10_state R20 "and no others, plus the observation log of rule R30". -/
structure CoreState where
  /-- `ch[0..15]` (R21). -/
  ch : Bank
  /-- `started` (R27). -/
  started : Bool
  /-- `phase` (R25), a ten-valued enumeration as R25 allows. -/
  phase : Phase
  /-- `t` (R26). -/
  t : BitVec 11
  /-- `fault` (R27, 60_exceptions R142). -/
  fault : Bool
  /-- `led` (R28). -/
  led : Bool
  /-- The observation log: the frames the transport has accepted since reset, oldest first (R30). -/
  wire : List Frame
deriving DecidableEq, Repr

/-- THE INTERFACE, which is no state of the core (30_encoding R73; log entries 1 to 3): the inputs a step takes, and the
outputs its operation drives. -/
structure Interface where
  /-- The event words presented and not yet taken, the next one first (30_encoding R64, 70_reset R167). -/
  events : List CmdWord
  /-- `tx_fail`: the transport's answer to the Submit of the current TICK (30_encoding R67, R73). -/
  txFail : Bool
  /-- The result outputs. -/
  out : Output
deriving DecidableEq, Repr

/-- What a step is a function of: the state of the core (`toCoreState`, R20 and R30), its interface (`toInterface`), and the
machine's parameters (`cfg`, 00_scope R8; log entry 4), which no operation writes. -/
structure State extends CoreState, Interface where
  /-- The parameters (00_scope R8). -/
  cfg : Config
deriving DecidableEq, Repr

/-- The machine right after reset (10_state R34, 70_reset R160): every channel 992, every other field 0, the wire empty,
no event presented, the default parameters. Power-up is this state too (R161, D25). -/
def State.reset : State where
  ch := Vector.replicate 16 992#11
  started := false
  phase := .neutral
  t := 0
  fault := false
  led := false
  wire := []
  events := []
  txFail := false
  out := .idle
  cfg := Config.default

/-- Reasons a step ends in a fault. There are none: "None of the items needs the treatments fault or stuck"
(spec/93_implementation_defined.md). TransportFailed is an exception the core takes and lives on with, `fault = 1`
(60_exceptions R143, R144), so it is a next state. -/
inductive Fault
deriving DecidableEq, Repr

/-- Reasons an event is refused: "the event is not admitted: no state changes, and the model marks the trace as one it
gives no meaning to" (00_scope R11). All are safe: the model stops. -/
inductive Refusal where
  /-- Raised by `exec` for an instruction without a meaning. No arm raises it now. Safe. -/
  | notModelled (mnemonic : String)
  /-- Raised by SET while the core is running (40_channelbank R82, 93 U2). Safe: the hardware drops the write. -/
  | setWhileRunning
  /-- Raised by GET with an index outside 0..15 (40_channelbank R83, 93 U1). Safe: no result exists. -/
  | getOutOfRange (i : Int)
  /-- Raised by START when `started = 1` (42_sequencer R101, 93 U3). Safe: the hardware changes nothing. -/
  | alreadyStarted
  /-- Raised by `step` for an illegal CMD word (30_encoding R68, 93 U9). Safe: the word is not admitted. -/
  | illegalWord (e : DecodeError)
deriving DecidableEq, Repr

/-- The three outcomes of an operation on this machine. -/
abbrev Result := Host.Outcome State Fault Refusal

end Sys2Proof.Machine
end

