-- ==== Sys2Proof/Machine/Operands.lean ====
section
/-! DEFINITION. Operand forms: the channel index, the clamp, the encoder's mask, the ramp values. All are over the
integers (spec/00_scope.md R10); the extraction of operands from a CMD word is the decoder's. -/

namespace Sys2Proof.Machine

/-- `clamp(v, lo, hi)` of 00_scope R10. -/
def clamp (v lo hi : Int) : Int := if v < lo then lo else if hi < v then hi else v

/-- The clamp of every channel write (40_channelbank R81). -/
def clampRaw (v : Int) : Int := clamp v chMin chMax

/-- The channel an index names, if it is in 0..15: "No index is ever wrapped, masked or truncated" (20_memory R46). -/
def chanIndex (i : Int) : Option (Fin 16) :=
  if h : 0 ≤ i ∧ i ≤ 15 then some ⟨i.toNat, by omega⟩ else none

/-- The 11-bit pattern stored for a value already in [172, 1811] (10_state R21: the value itself, no offset). -/
def toChan (v : Int) : Chan := BitVec.ofInt 11 v

/-- `x mod 2048`, the non-negative remainder (41_codec R91, D26). -/
def maskField (x : Int) : Nat := (x % 2048).toNat

/-- The throttle of ThrottleRampUp at tick `n` (42_sequencer R108). -/
def rampUpValue (n : Nat) : Int := chMin + rampStep * ((n / rampHold : Nat) : Int)

/-- The throttle of ThrottleRampDown at tick `n` (42_sequencer R110). -/
def rampDownValue (n : Nat) : Int := thrTop - rampStep * ((n / rampHold : Nat) : Int)

end Sys2Proof.Machine
end

