-- ==== Sys2Proof/Machine/Flags.lean ====
section
/-! DEFINITION. The condition `running` and the indicator's rule (spec/10_state.md R27, R28; spec/42_sequencer.md R114).
The other flag writes are single assignments in the operations that make them: `started` in START, `fault` in
`raiseTransportFailed`, all of them in RESET. -/

namespace Sys2Proof.Machine

/-- "running exactly when started = 1 and fault = 0 and phase != 9" (R27). -/
def State.running (s : State) : Bool := s.started && !s.fault && decide (s.phase ≠ .done)

/-- Whether `Led[p](n)` toggles the indicator (R114; the instants are decision D18 of the spec). -/
def ledToggles (c : Config) (p : Phase) (n : Nat) : Bool :=
  match p with
  | .neutral => decide (n % c.ledDivNeutral = 0)
  | .throttleHold => decide (n % c.ledDivHold = 0)
  | .arming => false
  | .armedHold => false
  | .throttleRampUp => false
  | .throttleRampDown => false
  | .throttleFloorHold => false
  | .disarming => false
  | .disarmedHold => false
  | .done => false

/-- The indicator after a tick answered ok at `(p, n)` (R114). -/
def ledAfter (c : Config) (p : Phase) (n : Nat) (led : Bool) : Bool :=
  if ledToggles c p n then !led else led

end Sys2Proof.Machine
end

