-- ==== Sys2Proof/Machine/Codec.lean ====
section
/-! DEFINITION. SbusFrameCodec: the function Encode and the law's Unpack (spec/41_codec.md R90 to R94). -/

namespace Sys2Proof.Machine

/-- The payload number `P`: field 0 in the 11 least significant bits, each later field above (R90 step 2). -/
def packFields : List Int → Nat
  | [] => 0
  | x :: rest => maskField x + 2 ^ 11 * packFields rest

/-- Payload byte `i`: bits `[8i, 8i+8)` of `P` (R90 step 3). -/
def payloadByte (p i : Nat) : Byte := BitVec.ofNat 8 (p / 2 ^ (8 * i))

/-- The 25-byte frame around a payload number (R90 step 4). -/
def frameOf (p : Nat) : Frame :=
  Vector.ofFn fun j : Fin 25 =>
    if j.val = 0 then startByte
    else if j.val ≤ 22 then payloadByte p (j.val - 1)
    else if j.val = 23 then flagByte
    else endByte

/-- `Encode(s)`: total, on any 16 integers (R90). -/
def encodeFrame (s : Vector Int 16) : Frame := frameOf (packFields s.toList)

/-- The payload number of a frame: `P = F1 + F2 * 2^8 + ... + F22 * 2^168` (R94). -/
def payloadOf (f : Frame) : Nat :=
  ((f.toList.drop 1).take 22).foldr (fun b acc => b.toNat + 2 ^ 8 * acc) 0

/-- `u_k` of `Unpack(F)` (R94). Not an operation of the core; claims about frames are stated with it. -/
def unpackField (f : Frame) (k : Nat) : Nat := payloadOf f / 2 ^ (11 * k) % 2 ^ 11

end Sys2Proof.Machine
end

