-- ==== Sys2Proof/Machine/Ops.lean ====
section
/-! DEFINITION. The shared operations on the state: the primitives of spec/00_scope.md R11, and taking the one exception
(spec/60_exceptions.md R143). There is no return from it: "There is no return-from-trap operation and no way to resume"
(R145). -/

namespace Sys2Proof.Machine

/-! ### The bank -/

/-- Read of one channel register (R11). -/
def readChan (b : Bank) (k : Fin 16) : Chan := b[k]

/-- `MemRead(a, n)`: the `n` consecutive registers from `ch[a]`, at one instant (R11). -/
def memRead (b : Bank) (a n : Nat) : List Chan := (b.toList.drop a).take n

/-- The snapshot as the 16 integers the encoder takes (20_memory R47, 41_codec R90). -/
def snapshotOf (b : Bank) : Vector Int 16 := Vector.ofFn fun k => ((readChan b k).toNat : Int)

/-- Write of one channel register, the value already in [172, 1811] (R11). -/
def writeChan (b : Bank) (k : Fin 16) (v : Int) : Bank := b.set k.val (toChan v)

/-- The bank's `set` contract: a clamped write, nothing for an index outside 0..15 (40_channelbank R80), without the
running test (42_sequencer R119). -/
def bankSet (b : Bank) (i v : Int) : Bank :=
  match chanIndex i with
  | some k => writeChan b k (clampRaw v)
  | none => b

/-- A list of clamped writes, first to last. -/
def bankSetAll (b : Bank) : List (Fin 16 × Int) → Bank
  | [] => b
  | (k, v) :: rest => bankSetAll (bankSet b (k.val : Int) v) rest

/-! ### Updates of the state -/

/-- The bank replaced. -/
def State.withBank (s : State) (b : Bank) : State := { s with ch := b }

/-- A result output driven (10_state R31). -/
def State.drive (s : State) (o : Output) : State := { s with out := o }

/-- `wire <- wire ++ [f]` (R11). -/
def State.appendWire (s : State) (f : Frame) : State := { s with wire := s.wire ++ [f] }

/-- `led` replaced (42_sequencer R114). -/
def State.withLed (s : State) (b : Bool) : State := { s with led := b }

/-- `pos <- (p, n)` (R11). -/
def State.setPos (s : State) (p : Phase) (n : Nat) : State := { s with phase := p, t := BitVec.ofNat 11 n }

/-- `started <- 1` (42_sequencer R101). -/
def State.markStarted (s : State) : State := { s with started := true }

/-- The transport's answer of a TICK presented on `tx_fail` (30_encoding R67). -/
def State.latchAnswer (s : State) (a : Answer) : State := { s with txFail := decide (a = .fail) }

/-- `Submit(F)`: the 25 bytes are handed over (`tx_valid`, `tx_frame`) and the transport answers (60_exceptions R141).
The answer is the environment's; the core reads it on `tx_fail`. -/
def submit (s : State) (f : Frame) : State × Answer :=
  (s.drive (.txFrame f), if s.txFail then .fail else .ok)

/-- TAKING THE EXCEPTION TransportFailed (60_exceptions R143): `fault <- 1`. "Nothing is saved anywhere else, no handler
runs, control goes nowhere": the position, `led`, the wire and the bank stay as they are. -/
def raiseTransportFailed (s : State) : State := { s with fault := true }

/-- Every field of R20 and the wire at its reset value (70_reset R160). The events still pending, the pins and the
parameters are no fields of R20 and stay. -/
def resetCore (s : State) : State :=
  { s with
    ch := Vector.replicate 16 992#11
    started := false
    phase := .neutral
    t := 0
    fault := false
    led := false
    wire := [] }

end Sys2Proof.Machine
end

