-- ==== Sys2Proof/Machine/ChannelBank.lean ====
section
/-! DEFINITION. The operations of ChannelBank (spec/40_channelbank.md) and the host operation ENCODE
(spec/41_codec.md R95). -/

namespace Sys2Proof.Machine

/-- NOP (R86). -/
def execNop (s : State) : Result := .next s

/-- SET i, v (R80): refused while running (R82), else a clamped write, nothing for an index outside 0..15. -/
def execSet (i v : Int) (s : State) : Result :=
  if s.running then .refused .setWhileRunning else .next (s.withBank (bankSet s.ch i v))

/-- GET i (R83): `MemRead(i, 1)` on `rd_data`; refused for an index outside 0..15. -/
def execGet (i : Int) (s : State) : Result :=
  match chanIndex i with
  | some k => .next (s.drive (.rdData (readChan s.ch k)))
  | none => .refused (.getOutOfRange i)

/-- SNAPSHOT (R84): `MemRead(0, 16)` on `snap`. -/
def execSnapshot (s : State) : Result := .next (s.drive (.snap s.ch))

/-- ENCODE (R95): the frame of the current bank on `enc_frame`; nothing is submitted. -/
def execEncode (s : State) : Result := .next (s.drive (.encFrame (encodeFrame (snapshotOf s.ch))))

end Sys2Proof.Machine
end

