-- ==== Sys2Proof/Machine/PhaseTable.lean ====
section
/-! DEFINITION. The fixed phase table (spec/42_sequencer.md R100), one iteration of the send loop through a row of it
(R103), and the advance of the position (R104). -/

namespace Sys2Proof.Machine

/-- `Action[p](n)`: the clamped writes of a phase, in the order the table lists them (R100, R105 to R113, R115). -/
def phaseWrites (c : Config) (p : Phase) (n : Nat) : List (Fin 16 × Int) :=
  match p with
  | .neutral =>
    [(c.roll, chMid), (c.pitch, chMid), (c.throttle, chMin), (c.yaw, chMid), (c.aux1, chMin), (c.aux2, chMin)]
  | .arming => [(c.throttle, chMin), (c.yaw, chMax)]
  | .armedHold => [(c.yaw, chMid)]
  | .throttleRampUp => [(c.throttle, rampUpValue n)]
  | .throttleHold => [(c.throttle, thrTop)]
  | .throttleRampDown => [(c.throttle, rampDownValue n)]
  | .throttleFloorHold => [(c.throttle, chMin)]
  | .disarming => [(c.throttle, chMin), (c.yaw, chMin)]
  | .disarmedHold => [(c.yaw, chMid)]
  | .done => []

/-- `DUR[p]`, in ticks (R100): each ramp has `RAMP_N` values, each held 5 ticks (R108, R110). Done is terminal. -/
def phaseDur (c : Config) (p : Phase) : Nat :=
  match p with
  | .neutral => 140
  | .arming => 150
  | .armedHold => 70
  | .throttleRampUp => c.rampN * rampHold
  | .throttleHold => 140
  | .throttleRampDown => c.rampN * rampHold
  | .throttleFloorHold => 70
  | .disarming => 150
  | .disarmedHold => 70
  | .done => 0

/-- The phase of the next code (R104); nothing follows Done (R115). -/
def nextPhase (p : Phase) : Phase :=
  match p with
  | .neutral => .arming
  | .arming => .armedHold
  | .armedHold => .throttleRampUp
  | .throttleRampUp => .throttleHold
  | .throttleHold => .throttleRampDown
  | .throttleRampDown => .throttleFloorHold
  | .throttleFloorHold => .disarming
  | .disarming => .disarmedHold
  | .disarmedHold => .done
  | .done => .done

/-- Step 7 of R103 (R104): `(p, n)` goes to `(p, n + 1)` when `n + 1 < DUR[p]`, else to `(p + 1, 0)`. -/
def advance (p : Phase) (n : Nat) (s : State) : State :=
  if n + 1 < phaseDur s.cfg p then s.setPos p (n + 1) else s.setPos (nextPhase p) 0

/-- One iteration of the send loop through row `p`, at the tick `n = t` of it: the seven steps of R103. -/
def iteration (p : Phase) (s : State) : State :=
  let n := s.t.toNat
  let acted := s.withBank (bankSetAll s.ch (phaseWrites s.cfg p n))
  let f := encodeFrame (snapshotOf acted.ch)
  match submit acted f with
  | (sent, .fail) => raiseTransportFailed sent
  | (sent, .ok) => advance p n ((sent.appendWire f).withLed (ledAfter s.cfg p n s.led))

/-- A row of the table at a tick. It acts when the core is running and the position selects it: "Exactly one phase is
active at a time" (10_state R25), a core that is not running does nothing at a tick (42_sequencer R102). A row that is
not selected does nothing (log entry 6). -/
def rowTick (p : Phase) (s : State) : State :=
  if s.running = true ∧ s.phase = p then iteration p s else s

end Sys2Proof.Machine
end

