-- ==== Sys2Proof/Machine/Phases.lean ====
section
/-! DEFINITION. The PHASE rows of the opcode table: what one TICK performs through each row (spec/42_sequencer.md R105 to
R113 and R115; log entry 6). -/

namespace Sys2Proof.Machine

/-- PHASE.Neutral (R105). -/
def execPhaseNeutral (s : State) : Result := .next (rowTick .neutral s)

/-- PHASE.Arming (R106). -/
def execPhaseArming (s : State) : Result := .next (rowTick .arming s)

/-- PHASE.ArmedHold (R107). -/
def execPhaseArmedHold (s : State) : Result := .next (rowTick .armedHold s)

/-- PHASE.ThrottleRampUp (R108). -/
def execPhaseThrottleRampUp (s : State) : Result := .next (rowTick .throttleRampUp s)

/-- PHASE.ThrottleHold (R109). -/
def execPhaseThrottleHold (s : State) : Result := .next (rowTick .throttleHold s)

/-- PHASE.ThrottleRampDown (R110). -/
def execPhaseThrottleRampDown (s : State) : Result := .next (rowTick .throttleRampDown s)

/-- PHASE.ThrottleFloorHold (R111). -/
def execPhaseThrottleFloorHold (s : State) : Result := .next (rowTick .throttleFloorHold s)

/-- PHASE.Disarming (R112). -/
def execPhaseDisarming (s : State) : Result := .next (rowTick .disarming s)

/-- PHASE.DisarmedHold (R113). -/
def execPhaseDisarmedHold (s : State) : Result := .next (rowTick .disarmedHold s)

/-- PHASE.Done (R115): "No action, no frame, no indicator change", and the position stays. -/
def execPhaseDone (s : State) : Result := .next s

end Sys2Proof.Machine
end

