-- ==== Sys2Proof/Machine/Sequencer.lean ====
section
/-! DEFINITION. START, TICK (spec/42_sequencer.md R101 to R104) and RESET (spec/70_reset_and_hazards.md R160). -/

namespace Sys2Proof.Machine

/-- START (R101): one run per reset; refused when `started = 1`. -/
def execStart (s : State) : Result :=
  if s.started then .refused .alreadyStarted else .next s.markStarted

/-- The row of the phase table a phase selects, performed. -/
def runRow (p : Phase) (s : State) : Result :=
  match p with
  | .neutral => execPhaseNeutral s
  | .arming => execPhaseArming s
  | .armedHold => execPhaseArmedHold s
  | .throttleRampUp => execPhaseThrottleRampUp s
  | .throttleHold => execPhaseThrottleHold s
  | .throttleRampDown => execPhaseThrottleRampDown s
  | .throttleFloorHold => execPhaseThrottleFloorHold s
  | .disarming => execPhaseDisarming s
  | .disarmedHold => execPhaseDisarmedHold s
  | .done => execPhaseDone s

/-- TICK with the transport's answer `a`: no effect when the core is not running, `a` ignored (R102); else one iteration
of the send loop through the row the position selects (R103). -/
def execTick (a : Answer) (s : State) : Result :=
  if s.running then runRow s.phase (s.latchAnswer a) else .next s

/-- RESET (R160), admitted in every state. -/
def execReset (s : State) : Result := .next (resetCore s)

end Sys2Proof.Machine
end

