-- ==== Sys2Proof/Machine/Dispatch.lean ====
section
/-! DEFINITION. The meaning of every instruction, one arm a constructor. -/

namespace Sys2Proof.Machine

def exec (i : Instr) (s : State) : Host.Outcome State Fault Refusal :=
  match i with
  | .nop => Sys2Proof.Machine.execNop s
  | .set idx v => Sys2Proof.Machine.execSet idx v s
  | .get idx => Sys2Proof.Machine.execGet idx s
  | .snapshot => Sys2Proof.Machine.execSnapshot s
  | .encode => Sys2Proof.Machine.execEncode s
  | .start => Sys2Proof.Machine.execStart s
  | .tick a => Sys2Proof.Machine.execTick a s
  | .reset => Sys2Proof.Machine.execReset s
  | .phaseNeutral => Sys2Proof.Machine.execPhaseNeutral s
  | .phaseArming => Sys2Proof.Machine.execPhaseArming s
  | .phaseArmedHold => Sys2Proof.Machine.execPhaseArmedHold s
  | .phaseThrottleRampUp => Sys2Proof.Machine.execPhaseThrottleRampUp s
  | .phaseThrottleHold => Sys2Proof.Machine.execPhaseThrottleHold s
  | .phaseThrottleRampDown => Sys2Proof.Machine.execPhaseThrottleRampDown s
  | .phaseThrottleFloorHold => Sys2Proof.Machine.execPhaseThrottleFloorHold s
  | .phaseDisarming => Sys2Proof.Machine.execPhaseDisarming s
  | .phaseDisarmedHold => Sys2Proof.Machine.execPhaseDisarmedHold s
  | .phaseDone => Sys2Proof.Machine.execPhaseDone s

end Sys2Proof.Machine
end

