-- ==== Sys2Proof/Machine/Fetch.lean ====
section
/-! DEFINITION. How events reach the core: the pins and their arbitration (spec/30_encoding.md R73,
spec/60_exceptions.md R149), taking the next event, placing a table word where the next step takes it, and the hardware's
rule for an event the model refuses. -/

namespace Sys2Proof.Machine

/-- The event words of one instant: "`RESET` is taken alone and discards the others; otherwise `TICK` is performed before
a host command" (60_exceptions R149, D24). -/
def Pins.words (p : Pins) : List CmdWord :=
  if p.rst then [cmdWord 0xF 0 0 0]
  else (if p.tick then [cmdWord 0x6 0 0 (if p.txFail then 1 else 0)] else []) ++
    (if p.cmdValid then [p.cmd] else [])

/-- The pins presented to the core: their events come after those already pending (70_reset R167). -/
def State.present (s : State) (p : Pins) : State := { s with events := s.events ++ p.words }

/-- The next event taken: its word, and the state in which its operation runs, with the result outputs of the operation
before it gone (10_state R31). Without an event the core waits (60_exceptions R156). -/
def takeEvent (s : State) : Option (CmdWord × State) :=
  match s.events with
  | [] => none
  | w :: rest => some (w, { s with events := rest, out := .idle })

/-- The operation of an event word; an illegal word is refused (30_encoding R68). -/
def runEvent (w : CmdWord) (s : State) : Result :=
  match decodeCmd s.cfg w with
  | .ok i => exec i s
  | .error e => .refused (.illegalWord e)

/-- A row's word of spec/opcode_table.json placed where the next step takes it. A CMD word becomes the next event. A PHASE
code is no event: the row is selected by the position of a running core and performed by a TICK (42_sequencer R103), so
it sets `started = 1`, `fault = 0`, the position `(p, 0)`, and makes a TICK answered ok the next event (log entry 1). -/
def placeTableWord (s : State) (nbits w : Nat) : State :=
  if nbits = 32 then { s with events := BitVec.ofNat 32 w :: s.events }
  else match phaseOfCode (BitVec.ofNat 4 w) with
    | some p => { s with started := true, fault := false, phase := p, t := 0, events := cmdWord 0x6 0 0 0 :: s.events }
    | none => s

/-- What the hardware does with an event it does not admit: it drops the event and no state changes (40_channelbank R82,
42_sequencer R101, 30_encoding R68; 00_scope R11). -/
def dropEvent (s : State) : State := { s with events := s.events.drop 1, out := .idle }

end Sys2Proof.Machine
end

