-- ==== Sys2Proof/Machine/Step.lean ====
section
/-! DEFINITION. One step of the core: one event, or a wait. -/

namespace Sys2Proof.Machine

/-- One step: the next event's operation, in one indivisible transition (spec/00_scope.md R12); with no event pending the
core waits and nothing changes (spec/60_exceptions.md R156, spec/70_reset_and_hazards.md R170). -/
def step (s : State) : Host.Outcome State Fault Refusal :=
  match takeEvent s with
  | none => .next s
  | some (w, s') => runEvent w s'

/-- `s` with a row's word of spec/opcode_table.json placed so that the next step runs it. -/
def State.withFetchWord (s : State) (nbits w : Nat) : State := placeTableWord s nbits w

end Sys2Proof.Machine
end

