-- ==== Sys2Proof/Machine/Signals.lean ====
section
/-! DEFINITION. The output signals (spec/30_encoding.md R73, R76) as views of the state, and the hardware's rule beside
the model's for events that are refused. -/

namespace Sys2Proof.Machine

/-- `started`, always visible (R76). -/
def State.startedSignal (s : State) : BitVec 1 := BitVec.ofBool s.started
/-- `phase`, always visible, as its code (R76, 10_state R25). -/
def State.phaseSignal (s : State) : PhaseCode := s.phase.code
/-- `fault`, always visible: 0, or the cause code FAULT_TRANSPORT (R76, 60_exceptions R142). -/
def State.faultSignal (s : State) : BitVec 1 := if s.fault then s.cfg.faultTransport else 0
/-- `led`, always visible (R76). -/
def State.ledSignal (s : State) : BitVec 1 := BitVec.ofBool s.led

/-- `rd_data`, while GET's result is driven. -/
def State.rdData (s : State) : Option Chan :=
  match s.out with
  | .rdData v => some v
  | .idle => none
  | .snap _ => none
  | .encFrame _ => none
  | .txFrame _ => none

/-- `snap`: `ch[k]` is `snap[11k+10:11k]` (R73, 40_channelbank R84). -/
def snapBits (b : Bank) : BitVec 176 := BitVec.ofNat 176 (b.toList.foldr (fun v acc => v.toNat + 2 ^ 11 * acc) 0)

/-- `snap`, while SNAPSHOT's result is driven. -/
def State.snapSignal (s : State) : Option (BitVec 176) :=
  match s.out with
  | .snap b => some (snapBits b)
  | .idle => none
  | .rdData _ => none
  | .encFrame _ => none
  | .txFrame _ => none

/-- A frame as the 200 bits of `tx_frame` and `enc_frame`: byte `n` is bits `8n+7:8n` (R61, R73). -/
def frameBits (f : Frame) : BitVec 200 := BitVec.ofNat 200 (f.toList.foldr (fun b acc => b.toNat + 2 ^ 8 * acc) 0)

/-- `enc_frame`, while ENCODE's result is driven. -/
def State.encFrameSignal (s : State) : Option (BitVec 200) :=
  match s.out with
  | .encFrame f => some (frameBits f)
  | .idle => none
  | .rdData _ => none
  | .snap _ => none
  | .txFrame _ => none

/-- `tx_frame` while `tx_valid` is raised: the frame the TICK just performed submitted. -/
def State.txSignal (s : State) : Option (BitVec 200) :=
  match s.out with
  | .txFrame f => some (frameBits f)
  | .idle => none
  | .rdData _ => none
  | .snap _ => none
  | .encFrame _ => none

/-- `cmd_ready`: "low while a `TICK` is being performed" (R73). An operation is one indivisible step (00_scope R12), so in
every state the model can show, none is being performed and the core can take a command. -/
def State.cmdReady (_ : State) : BitVec 1 := 1

/-- `frames_sent`: the length of the wire (10_state R30). -/
def State.framesSent (s : State) : Nat := s.wire.length

/-- THE HARDWARE'S RULE BESIDE THE MODEL'S. `step` refuses an event the spec does not admit, as the spec asks of a model;
the hardware drops it and goes on (40_channelbank R82, 42_sequencer R101, 30_encoding R68; 95_test_vectors P3, P5: "the
same state from the hardware rule, and a refusal mark from the model"). This is the state the hardware rule gives, with
the mark beside it. -/
def hardwareStep (s : State) : State × Option Refusal :=
  match step s with
  | .next s' => (s', none)
  | .refused r => (dropEvent s, some r)
  | .fault r => nomatch r

/-- `k` steps of the hardware's rule, with the marks of the events it dropped, oldest first. -/
def hardwareRun : Nat → State → State × List Refusal
  | 0, s => (s, [])
  | k + 1, s =>
    let one := hardwareStep s
    let more := hardwareRun k one.1
    (more.1, one.2.toList ++ more.2)

end Sys2Proof.Machine
end

