-- ==== Sys2Proof/Safety.lean ====
section
/-! DEFINITION. The terms claims are stated in: what a legal state, a legal frame and a safe run are, read from the spec and
not from the operations of the model. -/

namespace Sys2Proof.Machine

/-- "The core is *running* exactly when started = 1 and fault = 0 and phase != 9" (spec/10_state.md R27). -/
abbrev IsRunning (s : State) : Prop := s.started = true ∧ s.fault = false ∧ s.phase ≠ .done

/-- The value of channel `k` as an integer. -/
def chan (b : Bank) (k : Fin 16) : Int := ((readChan b k).toNat : Int)

/-- "At every instant, for every i in 0..15, 172 <= ch[i] <= 1811" (10_state R22). -/
abbrev BankInRange (b : Bank) : Prop := ∀ k : Fin 16, 172 ≤ chan b k ∧ chan b k ≤ 1811

/-- The only combinations of `started`, `fault` and `phase` (10_state R27): idle, running, finished, aborted. -/
abbrev RunStateLegal (s : State) : Prop :=
  (s.started = false ∧ s.fault = false ∧ s.phase = .neutral ∧ s.t = 0) ∨
  (s.started = true ∧ s.fault = false ∧ s.phase ≠ .done) ∨
  (s.started = true ∧ s.fault = false ∧ s.phase = .done) ∨
  (s.started = true ∧ s.fault = true ∧ s.phase ≠ .done)

/-- The position is one the machine can hold: `t` below the phase's duration, and `(9, 0)` in Done (10_state R26). -/
abbrev PositionLegal (s : State) : Prop :=
  (s.phase ≠ .done → s.t.toNat < phaseDur s.cfg s.phase) ∧ (s.phase = .done → s.t = 0)

/-- The position of `t` is the successor of the position of `s`: `(p, n + 1)` while the phase lasts, else `(p + 1, 0)`
(42_sequencer R104). -/
abbrev PositionAdvanced (s t : State) : Prop :=
  (s.t.toNat + 1 < phaseDur s.cfg s.phase ∧ t.phase = s.phase ∧ t.t.toNat = s.t.toNat + 1) ∨
  (s.t.toNat + 1 = phaseDur s.cfg s.phase ∧ t.phase.code = s.phase.code + 1 ∧ t.t = 0)

/-- A frame the core can emit: the three fixed bytes, and every field in [172, 1811] (30_encoding R61, R69). -/
abbrev FrameLegal (f : Frame) : Prop :=
  f[0] = 0x0F ∧ f[23] = 0x00 ∧ f[24] = 0x00 ∧
    ∀ k : Fin 16, 172 ≤ unpackField f k.val ∧ unpackField f k.val ≤ 1811

/-- Every frame on the wire is one the core can emit. -/
abbrev WireLegal (s : State) : Prop := ∀ f ∈ s.wire, FrameLegal f

/-- No frame on the wire carries a throttle above 1400, and while the core is running past its first tick the throttle
register is not above 1400 either (70_reset R169: "throttle never exceeds 1400 in any frame"). -/
abbrev ThrottleBounded (s : State) : Prop :=
  (∀ f ∈ s.wire, unpackField f s.cfg.throttle.val ≤ 1400) ∧
    (IsRunning s → (s.phase ≠ .neutral ∨ s.t ≠ 0) → chan s.ch s.cfg.throttle ≤ 1400)

/-- The `throttle` column of 10_state R35: its value after a successful TICK at position `(p, n)`. -/
def runThrottle (p : Phase) (n : Nat) : Int :=
  match p with
  | .throttleRampUp => 172 + 5 * ((n / 5 : Nat) : Int)
  | .throttleHold => 1400
  | .throttleRampDown => 1400 - 5 * ((n / 5 : Nat) : Int)
  | .neutral => 172
  | .arming => 172
  | .armedHold => 172
  | .throttleFloorHold => 172
  | .disarming => 172
  | .disarmedHold => 172
  | .done => 172

/-- The `yaw` column of 10_state R35. -/
def runYaw (p : Phase) : Int :=
  match p with
  | .arming => 1811
  | .disarming => 172
  | .neutral => 992
  | .armedHold => 992
  | .throttleRampUp => 992
  | .throttleHold => 992
  | .throttleRampDown => 992
  | .throttleFloorHold => 992
  | .disarmedHold => 992
  | .done => 992

/-- The position of the tick before the position `(p, n)`: none before the first tick of a run. -/
def lastPosition (c : Config) (p : Phase) (n : Nat) : Option (Phase × Nat) :=
  if 0 < n then some (p, n - 1)
  else match p with
    | .neutral => none
    | .arming => some (.neutral, 139)
    | .armedHold => some (.arming, 149)
    | .throttleRampUp => some (.armedHold, 69)
    | .throttleHold => some (.throttleRampUp, 5 * c.rampN - 1)
    | .throttleRampDown => some (.throttleHold, 139)
    | .throttleFloorHold => some (.throttleRampDown, 5 * c.rampN - 1)
    | .disarming => some (.throttleFloorHold, 69)
    | .disarmedHold => some (.disarming, 149)
    | .done => some (.disarmedHold, 69)

/-- The six role channels hold what the table of 10_state R35 says after a successful TICK at `(p, n)`. -/
abbrev RolesAfter (c : Config) (b : Bank) (p : Phase) (n : Nat) : Prop :=
  chan b c.roll = 992 ∧ chan b c.pitch = 992 ∧ chan b c.throttle = runThrottle p n ∧ chan b c.yaw = runYaw p ∧
    chan b c.aux1 = 172 ∧ chan b c.aux2 = 172

/-- "During a run with no host writes, the whole bank is a function of the position" (10_state R35): while the core runs,
the role channels are those of the tick before the position. -/
abbrev RunBankFollowsPosition (s : State) : Prop :=
  IsRunning s → ∀ q ∈ lastPosition s.cfg s.phase s.t.toNat, RolesAfter s.cfg s.ch q.1 q.2

/-- The tick number at which a phase begins in a complete run with RAMP_N = 246 (42_sequencer R116). -/
def firstTick (p : Phase) : Nat :=
  match p with
  | .neutral => 0
  | .arming => 140
  | .armedHold => 290
  | .throttleRampUp => 360
  | .throttleHold => 1590
  | .throttleRampDown => 1730
  | .throttleFloorHold => 2960
  | .disarming => 3030
  | .disarmedHold => 3180
  | .done => 3250

/-- How many ticks of a run lie behind a position (R116). -/
def elapsed (s : State) : Nat := firstTick s.phase + s.t.toNat

/-- The throttle field of frame `j` of a complete run (42_sequencer R118). -/
def wireThrottle (j : Nat) : Nat :=
  if j < 360 then 172
  else if j < 1590 then 172 + 5 * ((j - 360) / 5)
  else if j < 1730 then 1400
  else if j < 2960 then 1400 - 5 * ((j - 1730) / 5)
  else 172

/-- The yaw field of frame `j` of a complete run (R118). -/
def wireYaw (j : Nat) : Nat :=
  if 140 ≤ j ∧ j < 290 then 1811 else if 3030 ≤ j ∧ j < 3180 then 172 else 992

/-- `k` TICK events answered ok, then `rest` (30_encoding R72, `TICKS k`). -/
def okTicks (k : Nat) (rest : List CmdWord) : List CmdWord := List.replicate k 0x60000000#32 ++ rest

/-- One operation after another. -/
def thenExec (r : Result) (i : Instr) : Result :=
  match r with
  | .next t => exec i t
  | .fault f => .fault f
  | .refused q => .refused q

/-- Bits 31:28 of a CMD word (30_encoding R64). -/
def cmdOp (w : CmdWord) : Nat := w.toNat / 2 ^ 28

/-- An illegal CMD word, in the words of 30_encoding R68: `op` is 0x7 to 0xE, or `z` is not 0, or a field that R66 says is
0 is not 0 (the index of every operation but SET and GET, the data of every operation but SET and TICK), or bits 15:1 of a
TICK word are not 0. -/
abbrev IllegalCmd (w : CmdWord) : Prop :=
  (7 ≤ cmdOp w ∧ cmdOp w ≤ 14) ∨ w.toNat / 2 ^ 24 % 16 ≠ 0 ∨
  (cmdOp w ≠ 1 ∧ cmdOp w ≠ 2 ∧ w.toNat / 2 ^ 16 % 256 ≠ 0) ∨
  (cmdOp w ≠ 1 ∧ cmdOp w ≠ 6 ∧ w.toNat % 2 ^ 16 ≠ 0) ∨
  (cmdOp w = 6 ∧ w.toNat % 2 ^ 16 / 2 ≠ 0)

/-- What one TICK performs through row `i` of phase `p`, code `code`, duration `dur`, next phase `nxt`, channels written
`value` (a template of the phase rules of 42_sequencer section 4, over R103 and R143). The indicator is left open in
Neutral and ThrottleHold, whose toggle instants are decision D18, and unchanged elsewhere. -/
def PhaseRowActs (i : Instr) (code : PhaseCode) (p nxt : Phase) (dur : Config → Nat)
    (value : Config → Nat → Fin 16 → Option Int) : Prop :=
  decodePhase code = .ok i ∧
  ∀ s : State, s.cfg.Legal → PositionLegal s → IsRunning s → s.phase = p →
    ∃ b : Bank, (∀ k, chan b k = (value s.cfg s.t.toNat k).getD (chan s.ch k)) ∧
      (s.txFail = false → ∃ l : Bool, (p ≠ .neutral → p ≠ .throttleHold → l = s.led) ∧
        exec i s = .next { s with
          ch := b
          out := .txFrame (encodeFrame (snapshotOf b))
          wire := s.wire ++ [encodeFrame (snapshotOf b)]
          led := l
          phase := if s.t.toNat + 1 < dur s.cfg then p else nxt
          t := if s.t.toNat + 1 < dur s.cfg then s.t + 1 else 0 }) ∧
      (s.txFail = true →
        exec i s = .next { s with ch := b, out := .txFrame (encodeFrame (snapshotOf b)), fault := true })

/-- The frame row `i` submits, with the default role indices, when the channels listed in `before` hold the values given
there (the "Frame" lines of 42_sequencer section 4). -/
def PhaseRowSubmits (i : Instr) (p : Phase) (before : List (Fin 16 × Int)) (f : Frame) : Prop :=
  ∀ s : State, s.cfg.Legal → s.cfg.roles = [0, 1, 2, 3, 4, 5] → PositionLegal s → IsRunning s → s.phase = p →
    (∀ kv ∈ before, chan s.ch kv.1 = kv.2) → ∃ t, exec i s = .next t ∧ t.out = .txFrame f

/-- Channels 6 to 15 at 992. -/
def restCentered : List (Fin 16 × Int) :=
  [(6, 992), (7, 992), (8, 992), (9, 992), (10, 992), (11, 992), (12, 992), (13, 992), (14, 992), (15, 992)]

end Sys2Proof.Machine
end

