-- ==== Sys2Proof/Certificates/Slice0/Obligations.lean ====
section
/-! DEFINITION. The statements for the provers, from the numbered rules of spec/. -/

open Sys2Proof Sys2Proof.Machine

/-! ### Encodings -/

/-- 30_encoding R64 to R67, R70, 10_state R25: no operand bit is dropped on the way through the code word. -/
def Obligations.DecodeOfEncodeIsTheInstruction : Prop :=
  ∀ (c : Config) (i : Instr), c.idxW ≤ 8 → c.rawW ≤ 16 → wellFormed c i = true → decode c (encode i) = .ok i

/-- 30_encoding R66, R68, R70: a legal word has one meaning, and is the word of that meaning. -/
def Obligations.EncodeOfDecodeIsTheWord : Prop :=
  ∀ (c : Config) (w : CodeWord) (i : Instr), decode c w = .ok i → wellFormed c i = true ∧ encode i = w

/-- 30_encoding R68 (the spec's decision D17). The hardware's part, "it changes no state", is `hardwareStep`'s. -/
def Obligations.IllegalWordsAreRefusedAndChangeNothing : Prop :=
  ∀ (w : CmdWord),
    (∀ c : Config, c.idxW = 8 → c.rawW = 16 → ((∃ e, decodeCmd c w = .error e) ↔ IllegalCmd w)) ∧
    ∀ (s : State) (rest : List CmdWord), s.events = w :: rest → IllegalCmd w →
      ∃ e, step s = .refused (.illegalWord e) ∧
        hardwareStep s = ({ s with events := rest, out := .idle }, some (.illegalWord e))

/-- 30_encoding R70: the decoder accepts exactly the words of the table's rows, gives a row's word the row's instruction,
and no word belongs to two rows. -/
def Obligations.DecoderIsTheOpcodeTable : Prop :=
  (∀ (c : Config) (w : CmdWord) (i : Instr), decodeCmd c w = .ok i →
    ∃ r ∈ cmdRows, r.accepts w = true ∧ r.mnemonic = i.mnemonic) ∧
  (∀ c : Config, c.idxW = 8 → c.rawW = 16 → ∀ w : CmdWord, ∀ r ∈ cmdRows, r.accepts w = true →
    ∃ i, decodeCmd c w = .ok i ∧ i.mnemonic = r.mnemonic) ∧
  (∀ w : CmdWord, ∀ r ∈ cmdRows, ∀ q ∈ cmdRows, r.accepts w = true → q.accepts w = true → r = q) ∧
  (∀ c : PhaseCode, ∀ r ∈ phaseRows, r.accepts c = true ↔ ∃ i, decodePhase c = .ok i ∧ i.mnemonic = r.mnemonic)

/-- Words written out in spec/95_test_vectors.md (S2, P1, P3, P5, P6) and the codes of 10_state R25. -/
def Obligations.WordsOfTheSpecDecode : Prop :=
  decodeCmd Config.default 0x00000000 = .ok .nop ∧ decodeCmd Config.default 0x10000032 = .ok (.set 0 50) ∧
  decodeCmd Config.default 0x101003E8 = .ok (.set 16 1000) ∧ decodeCmd Config.default 0x10FF03E8 = .ok (.set (-1) 1000) ∧
  decodeCmd Config.default 0x1003FFF9 = .ok (.set 3 (-7)) ∧ decodeCmd Config.default 0x200E0000 = .ok (.get 14) ∧
  decodeCmd Config.default 0x30000000 = .ok .snapshot ∧ decodeCmd Config.default 0x40000000 = .ok .encode ∧
  decodeCmd Config.default 0x50000000 = .ok .start ∧ decodeCmd Config.default 0x60000000 = .ok (.tick .ok) ∧
  decodeCmd Config.default 0x60000001 = .ok (.tick .fail) ∧ decodeCmd Config.default 0xF0000000 = .ok .reset ∧
  decodePhase 0x3 = .ok .phaseThrottleRampUp ∧ decodePhase 0x9 = .ok .phaseDone

/-- 00_scope R8, R10 and 30_encoding R65: the operand widths IDX_W and RAW_W limit what can be presented and nothing else.
What becomes of a word whose operand is wider than the machine's widths is the model's choice (log entry 5). -/
def Obligations.OperandWidthsOnlyLimitWhatIsPresented : Prop :=
  (∀ (c : Config) (w : CmdWord) (i : Instr),
    decodeCmd c w = .ok i ↔ decodeCmd Config.default w = .ok i ∧ wellFormed c i = true) ∧
  (∀ (c : Config) (w : CmdWord) (i : Instr), decodeCmd Config.default w = .ok i → wellFormed c i = false →
    decodeCmd c w = .error .operandTooWide) ∧
  (∀ i v : Int, wellFormed Config.default (.set i v) = true ↔ -128 ≤ i ∧ i ≤ 127 ∧ -32768 ≤ v ∧ v ≤ 32767) ∧
  (∀ i : Int, wellFormed Config.default (.get i) = true ↔ -128 ≤ i ∧ i ≤ 127) ∧
  ∀ (i : Instr) (s : State) (m n : Nat),
    (∀ t, exec i s = .next t →
      exec i { s with cfg := { s.cfg with idxW := m, rawW := n } } =
        .next { t with cfg := { s.cfg with idxW := m, rawW := n } }) ∧
    (∀ r, exec i s = .refused r → exec i { s with cfg := { s.cfg with idxW := m, rawW := n } } = .refused r)

/-! ### One step -/

/-- 00_scope R12, 20_memory R50, 70_reset R167: a step is the whole operation of the next event, and takes that event. The
event list and the result outputs are the model's form of the interface (log entries 1 and 3). -/
def Obligations.StepRunsTheDecodedEvent : Prop :=
  ∀ (s : State) (w : CmdWord) (rest : List CmdWord) (i : Instr), s.events = w :: rest → decodeCmd s.cfg w = .ok i →
    step s = exec i { s with events := rest, out := .idle }

/-- 60_exceptions R156, 70_reset R170: without an event the core waits, and all state survives. -/
def Obligations.StepWithoutEventWaits : Prop :=
  ∀ s : State, s.events = [] → step s = .next s ∧ hardwareStep s = (s, none)

/-- 60_exceptions R149 (the spec's decision D24). The list the events join is the model's (log entry 1). -/
def Obligations.PresentedTogetherResetThenTickThenCommand : Prop :=
  ∀ (s : State) (p : Pins),
    (p.rst = true → (s.present p).events = s.events ++ [0xF0000000]) ∧
    (p.rst = false → p.tick = true → p.cmdValid = true →
      (s.present p).events = s.events ++ [if p.txFail then 0x60000001 else 0x60000000, p.cmd]) ∧
    (p.rst = false → p.tick = true → p.cmdValid = false →
      (s.present p).events = s.events ++ [if p.txFail then 0x60000001 else 0x60000000]) ∧
    (p.rst = false → p.tick = false → p.cmdValid = true → (s.present p).events = s.events ++ [p.cmd]) ∧
    (p.rst = false → p.tick = false → p.cmdValid = false → s.present p = s)

/-! ### ChannelBank -/

/-- 40_channelbank R86. -/
def Obligations.NopHasNoEffect : Prop :=
  (∀ c, decodeCmd c 0x00000000 = .ok .nop) ∧ ∀ s : State, exec .nop s = .next s

/-- 40_channelbank R80: the whole rule, its refusal while running too. -/
def Obligations.SetIsAClampedWrite : Prop :=
  (∀ (c : Config) (idx : BitVec 8) (dat : BitVec 16), wellFormed c (.set idx.toInt dat.toInt) = true →
    decodeCmd c (BitVec.ofNat 32 (0x10000000 + 0x10000 * idx.toNat + dat.toNat)) = .ok (.set idx.toInt dat.toInt)) ∧
  ∀ (s : State) (i v : Int),
    (IsRunning s → exec (.set i v) s = .refused .setWhileRunning) ∧
    (¬ IsRunning s → ∃ b : Bank, exec (.set i v) s = .next { s with ch := b } ∧
      ∀ k : Fin 16, chan b k =
        if (k.val : Int) = i then (if v < 172 then 172 else if 1811 < v then 1811 else v) else chan s.ch k)

/-- 40_channelbank R81: saturation, in range, fits 11 bits, idempotent, monotone. -/
def Obligations.ClampSaturates : Prop :=
  ∀ v w : Int,
    (v < 172 → clampRaw v = 172) ∧ (1811 < v → clampRaw v = 1811) ∧ (172 ≤ v → v ≤ 1811 → clampRaw v = v) ∧
    172 ≤ clampRaw v ∧ clampRaw v ≤ 1811 ∧ ((toChan (clampRaw v)).toNat : Int) = clampRaw v ∧
    clampRaw (clampRaw v) = clampRaw v ∧ (v ≤ w → clampRaw v ≤ clampRaw w)

/-- 40_channelbank R85, which the spec derives from R80. -/
def Obligations.SetsCommuteAndTheLastWriteWins : Prop :=
  ∀ (s : State) (i j v w : Int), ¬ IsRunning s →
    (i ≠ j → thenExec (exec (.set i v) s) (.set j w) = thenExec (exec (.set j w) s) (.set i v)) ∧
    thenExec (exec (.set i v) s) (.set i w) = exec (.set i w) s ∧
    ∃ t, exec (.set i v) s = .next t ∧ t = { s with ch := t.ch } ∧
      ∀ k : Fin 16, chan t.ch k = if (k.val : Int) = i then max 172 (min v 1811) else chan s.ch k

/-- 40_channelbank R82 (the spec's decision D15): the hardware drops the write, the model refuses the event; when the
core is not running SET completes. -/
def Obligations.HostSetWhileRunningIsDroppedAndRefused : Prop :=
  ∀ (s : State) (w : CmdWord) (rest : List CmdWord) (i v : Int), s.events = w :: rest →
    decodeCmd s.cfg w = .ok (.set i v) →
    (IsRunning s → step s = .refused .setWhileRunning ∧
      hardwareStep s = ({ s with events := rest, out := .idle }, some .setWhileRunning)) ∧
    (s.started = false ∨ s.phase = .done ∨ s.fault = true → ∃ t, step s = .next t ∧ t.events = rest ∧
      ∀ k : Fin 16, chan t.ch k =
        if (k.val : Int) = i then (if v < 172 then 172 else if 1811 < v then 1811 else v) else chan s.ch k)

/-- 40_channelbank R83 (the refusal is the spec's decision D16): the result on `rd_data`, no state written, admitted also
while running. -/
def Obligations.GetReadsOneRegister : Prop :=
  (∀ (c : Config) (idx : BitVec 8), wellFormed c (.get idx.toInt) = true →
    decodeCmd c (BitVec.ofNat 32 (0x20000000 + 0x10000 * idx.toNat)) = .ok (.get idx.toInt)) ∧
  ∀ (s : State) (i : Int),
    (∀ k : Fin 16, i = (k.val : Int) →
      exec (.get i) s = .next { s with out := .rdData s.ch[k] } ∧
      (BankInRange s.ch → 172 ≤ s.ch[k].toNat ∧ s.ch[k].toNat ≤ 1811) ∧
      (¬ IsRunning s → ∀ v : Int, ∃ t x, thenExec (exec (.set i v) s) (.get i) = .next t ∧ t.out = .rdData x ∧
        (x.toNat : Int) = if v < 172 then 172 else if 1811 < v then 1811 else v)) ∧
    (i < 0 ∨ 15 < i → exec (.get i) s = .refused (.getOutOfRange i))

/-- 40_channelbank R84: the sixteen values at one instant, and their places on the `snap` output. -/
def Obligations.SnapshotReadsAllRegisters : Prop :=
  (∀ c, decodeCmd c 0x30000000 = .ok .snapshot) ∧
  ∀ s : State, exec .snapshot s = .next { s with out := .snap s.ch } ∧
    (BankInRange s.ch → ∀ k : Fin 16, 172 ≤ s.ch[k].toNat ∧ s.ch[k].toNat ≤ 1811) ∧
    ∃ x : BitVec 176, State.snapSignal { s with out := .snap s.ch } = some x ∧
      ∀ k : Fin 16, x.extractLsb' (11 * k.val) 11 = s.ch[k]

/-- 41_codec R95 (offering the operation is the spec's decision D22): the frame of the current bank, nothing submitted,
nothing written; after a TICK it is that TICK's frame. -/
def Obligations.EncodeShowsTheFrameOfTheBank : Prop :=
  (∀ c, decodeCmd c 0x40000000 = .ok .encode) ∧
  ∀ s : State,
    exec .encode s = .next { s with out := .encFrame (encodeFrame (snapshotOf s.ch)) } ∧
    (BankInRange s.ch → ∀ k : Fin 16, 172 ≤ unpackField (encodeFrame (snapshotOf s.ch)) k.val ∧
      unpackField (encodeFrame (snapshotOf s.ch)) k.val ≤ 1811) ∧
    (IsRunning s → ∀ a : Answer, ∃ t f, exec (.tick a) s = .next t ∧ t.out = .txFrame f ∧
      exec .encode t = .next { t with out := .encFrame f })

/-- 20_memory R48: reads change no state and are idempotent, SET is idempotent, TICK of a running core is not. -/
def Obligations.ReadsHaveNoSideEffects : Prop :=
  ∀ s : State,
    (∀ i ∈ [Instr.snapshot, Instr.encode], ∃ t, exec i s = .next t ∧ t = { s with out := t.out } ∧ exec i t = .next t) ∧
    (∀ j : Int, 0 ≤ j → j ≤ 15 → ∃ t, exec (.get j) s = .next t ∧ t = { s with out := t.out } ∧
      exec (.get j) t = .next t) ∧
    (∀ (j : Int) t, exec (.get j) s = .next t → t = { s with out := t.out }) ∧
    (∀ (j v : Int) t, exec (.set j v) s = .next t → exec (.set j v) t = .next t) ∧
    (IsRunning s → s.cfg.Legal → PositionLegal s → ∃ t, exec (.tick .ok) s = .next t ∧
      t.wire.length = s.wire.length + 1 ∧ (t.phase, t.t) ≠ (s.phase, s.t))

/-! ### SbusFrameCodec -/

/-- 41_codec R90: the four-step algorithm, with the payload number written as the sum the rule gives. -/
def Obligations.EncodeIsTheFourStepAlgorithm : Prop :=
  ∀ s : Vector Int 16, ∃ p : Nat, (p : Int) = ∑ k : Fin 16, (s[k] % 2048) * 2 ^ (11 * k.val) ∧ p < 2 ^ 176 ∧
    (encodeFrame s)[0] = 0x0F ∧ (encodeFrame s)[23] = 0x00 ∧ (encodeFrame s)[24] = 0x00 ∧
    ∀ i : Fin 22, ((encodeFrame s)[i.val + 1]).toNat = p / 2 ^ (8 * i.val) % 256

/-- 41_codec R92, the byte-by-byte form the spec derives from R90: the 22 payload bytes written from the 11-bit fields. -/
def Obligations.EncodeIsTheByteTable : Prop :=
  ∀ (s : Vector Int 16) (c : Fin 16 → BitVec 11), (∀ k, ((c k).toNat : Int) = s[k] % 2048) →
    ∀ h : Fin 2, ∀ x : Fin 8 → BitVec 11, (∀ j : Fin 8, x j = c ⟨8 * h.val + j.val, by omega⟩) →
      let f := fun n : Nat => (encodeFrame s).toList.getD (11 * h.val + n) 0
      f 1 = (x 0).extractLsb' 0 8 ∧
      f 2 = ((x 0).extractLsb' 8 3).setWidth 8 ||| ((x 1).extractLsb' 0 5).setWidth 8 <<< 3 ∧
      f 3 = ((x 1).extractLsb' 5 6).setWidth 8 ||| ((x 2).extractLsb' 0 2).setWidth 8 <<< 6 ∧
      f 4 = (x 2).extractLsb' 2 8 ∧
      f 5 = ((x 2).extractLsb' 10 1).setWidth 8 ||| ((x 3).extractLsb' 0 7).setWidth 8 <<< 1 ∧
      f 6 = ((x 3).extractLsb' 7 4).setWidth 8 ||| ((x 4).extractLsb' 0 4).setWidth 8 <<< 4 ∧
      f 7 = ((x 4).extractLsb' 4 7).setWidth 8 ||| ((x 5).extractLsb' 0 1).setWidth 8 <<< 7 ∧
      f 8 = (x 5).extractLsb' 1 8 ∧
      f 9 = ((x 5).extractLsb' 9 2).setWidth 8 ||| ((x 6).extractLsb' 0 6).setWidth 8 <<< 2 ∧
      f 10 = ((x 6).extractLsb' 6 5).setWidth 8 ||| ((x 7).extractLsb' 0 3).setWidth 8 <<< 5 ∧
      f 11 = (x 7).extractLsb' 3 8

/-- 41_codec R93: the shape of every frame, and that nothing but the masked values counts. -/
def Obligations.FrameShapeAndMaskedValuesOnly : Prop :=
  ∀ s u : Vector Int 16,
    (encodeFrame s).toList.length = 25 ∧ (encodeFrame s)[0] = 0x0F ∧ (encodeFrame s)[23] = 0x00 ∧
    (encodeFrame s)[24] = 0x00 ∧ ((∀ k : Fin 16, s[k] % 2048 = u[k] % 2048) → encodeFrame s = encodeFrame u)

/-- 41_codec R94: unpacking an encoded snapshot gives the masked values; so Encode is injective on 0..2047. -/
def Obligations.UnpackOfEncodeIsTheMaskedSnapshot : Prop :=
  (∀ (s : Vector Int 16) (k : Fin 16), (unpackField (encodeFrame s) k.val : Int) = s[k] % 2048) ∧
  (∀ s u : Vector Int 16, (∀ k : Fin 16, 0 ≤ s[k] ∧ s[k] ≤ 2047) → (∀ k : Fin 16, 0 ≤ u[k] ∧ u[k] ≤ 2047) →
    encodeFrame s = encodeFrame u → s = u)

/-- 20_memory R43: bit `b` of channel `k` is bit `(11k + b) mod 8` of frame byte `(11k + b) div 8 + 1`. -/
def Obligations.BitOfChannelHasItsPlaceInTheFrame : Prop :=
  ∀ (bank : Bank) (k : Fin 16) (b : Fin 11),
    ((encodeFrame (snapshotOf bank)).toList.getD ((11 * k.val + b.val) / 8 + 1) 0).getLsbD ((11 * k.val + b.val) % 8) =
      bank[k].getLsbD b.val

/-- 41_codec R96, which the spec derives from R90: changing one input changes only the bits of its own field. -/
def Obligations.ChangingOneInputChangesOnlyItsField : Prop :=
  ∀ (s : Vector Int 16) (k : Fin 16) (v : Int) (n : Fin 25) (b : Fin 8),
    (encodeFrame (s.set k.val v))[n].getLsbD b.val ≠ (encodeFrame s)[n].getLsbD b.val →
      1 ≤ n.val ∧ 11 * k.val ≤ 8 * (n.val - 1) + b.val ∧ 8 * (n.val - 1) + b.val < 11 * k.val + 11

/-- 41_codec R97, which the spec derives from R90: sixteen equal inputs give a payload of period 11; with all channels at
992 the bytes are E0, 03, 1F (the correction of 90_conflicts C1). -/
def Obligations.EqualInputsGiveAPeriodicPayload : Prop :=
  (∀ (s : Vector Int 16) (c : Int), (∀ k : Fin 16, s[k] % 2048 = c) →
    ∀ i : Fin 11, (encodeFrame s)[i.val + 12] = (encodeFrame s)[i.val + 1]) ∧
  (let f := encodeFrame (Vector.replicate 16 992); f[1] = 0xE0 ∧ f[2] = 0x03 ∧ f[3] = 0x1F)

/-! ### ControlSequencer: START and TICK -/

/-- 42_sequencer R101 (the spec's decisions D7, D23): one run per reset; a second START changes nothing and is refused. -/
def Obligations.StartBeginsTheOneRun : Prop :=
  (∀ c, decodeCmd c 0x50000000 = .ok .start) ∧
  ∀ s : State,
    (s.started = false → exec .start s = .next { s with started := true } ∧
      (RunStateLegal s → s.phase = .neutral ∧ s.t = 0)) ∧
    (s.started = true → exec .start s = .refused .alreadyStarted ∧
      ∀ rest, s.events = 0x50000000 :: rest →
        hardwareStep s = ({ s with events := rest, out := .idle }, some .alreadyStarted))

/-- 42_sequencer R102 (the spec's decision D14): a TICK of a core that is not running has no effect, whatever its answer
bit. -/
def Obligations.TickOfAnIdleCoreHasNoEffect : Prop :=
  ∀ (s : State) (a : Answer), (s.started = false ∨ s.fault = true ∨ s.phase = .done) → exec (.tick a) s = .next s

/-- 42_sequencer R103, R104: a TICK of a running core performs the row its position selects, on the transport's answer.
That the rows not selected do nothing is the model's reading (log entry 6). -/
def Obligations.TickPerformsTheSelectedRow : Prop :=
  (∀ (s : State) (a : Answer), IsRunning s →
    exec (.tick a) s = exec s.phase.instr { s with txFail := decide (a = .fail) }) ∧
  (∀ (s : State) (p : Phase), (¬ IsRunning s ∨ s.phase ≠ p) → exec p.instr s = .next s)

/-- 42_sequencer R103: the seven steps of one TICK of a running core, answered ok and answered fail. The indicator (step
6) is left open: its instants are decision D18. -/
def Obligations.TickIsOneIterationOfTheSendLoop : Prop :=
  ∀ s : State, IsRunning s →
    let b := bankSetAll s.ch (phaseWrites s.cfg s.phase s.t.toNat)
    let f := encodeFrame (snapshotOf b)
    let last := ¬ s.t.toNat + 1 < phaseDur s.cfg s.phase
    (∃ l : Bool, exec (.tick .ok) s = .next { s with
      ch := b
      txFail := false
      out := .txFrame f
      wire := s.wire ++ [f]
      led := l
      phase := if last then nextPhase s.phase else s.phase
      t := if last then 0 else BitVec.ofNat 11 (s.t.toNat + 1) }) ∧
    exec (.tick .fail) s = .next { s with ch := b, txFail := true, out := .txFrame f, fault := true }

/-! ### The rows of the phase table -/

/-- 42_sequencer R105. The indicator is left open (decision D18). -/
def Obligations.NeutralRowActs : Prop :=
  PhaseRowActs .phaseNeutral 0x0 .neutral .arming (fun _ => 140) (fun c _ k =>
    if k = c.roll then some 992 else if k = c.pitch then some 992 else if k = c.throttle then some 172
    else if k = c.yaw then some 992 else if k = c.aux1 then some 172 else if k = c.aux2 then some 172 else none) ∧
  PhaseRowSubmits .phaseNeutral .neutral restCentered
    #v[0x0F, 0xE0, 0x03, 0x1F, 0x2B, 0xC0, 0xC7, 0x0A, 0x56, 0x80, 0x0F, 0x7C, 0xE0, 0x03, 0x1F, 0xF8, 0xC0, 0x07, 0x3E,
      0xF0, 0x81, 0x0F, 0x7C, 0x00, 0x00]

/-- 42_sequencer R106. -/
def Obligations.ArmingRowActs : Prop :=
  PhaseRowActs .phaseArming 0x1 .arming .armedHold (fun _ => 150) (fun c _ k =>
    if k = c.throttle then some 172 else if k = c.yaw then some 1811 else none) ∧
  PhaseRowSubmits .phaseArming .arming ([(0, 992), (1, 992), (4, 172), (5, 172)] ++ restCentered)
    #v[0x0F, 0xE0, 0x03, 0x1F, 0x2B, 0x26, 0xCE, 0x0A, 0x56, 0x80, 0x0F, 0x7C, 0xE0, 0x03, 0x1F, 0xF8, 0xC0, 0x07, 0x3E,
      0xF0, 0x81, 0x0F, 0x7C, 0x00, 0x00]

/-- 42_sequencer R107. -/
def Obligations.ArmedHoldRowActs : Prop :=
  PhaseRowActs .phaseArmedHold 0x2 .armedHold .throttleRampUp (fun _ => 70) (fun c _ k =>
    if k = c.yaw then some 992 else none) ∧
  PhaseRowSubmits .phaseArmedHold .armedHold ([(0, 992), (1, 992), (2, 172), (4, 172), (5, 172)] ++ restCentered)
    #v[0x0F, 0xE0, 0x03, 0x1F, 0x2B, 0xC0, 0xC7, 0x0A, 0x56, 0x80, 0x0F, 0x7C, 0xE0, 0x03, 0x1F, 0xF8, 0xC0, 0x07, 0x3E,
      0xF0, 0x81, 0x0F, 0x7C, 0x00, 0x00]

/-- 42_sequencer R108 (the ramp's length and end values are the spec's decision D9): the row for every RAMP_N, and with
RAMP_N = 246 its 1230 ticks, its first value 172 and its last value 1397. -/
def Obligations.ThrottleRampUpRowActs : Prop :=
  PhaseRowActs .phaseThrottleRampUp 0x3 .throttleRampUp .throttleHold (fun c => 5 * c.rampN) (fun c n k =>
    if k = c.throttle then some (172 + 5 * ((n / 5 : Nat) : Int)) else none) ∧
  (∀ c : Config, c.rampN = 246 → phaseDur c .throttleRampUp = 1230) ∧
  (∀ n, n < 5 → rampUpValue n = 172) ∧ (∀ n, 1225 ≤ n → n < 1230 → rampUpValue n = 1397) ∧
  ∀ n, n < 1230 → rampUpValue n ≠ 1400 ∧ rampUpValue (n + 5) = rampUpValue n + 5

/-- 42_sequencer R109. The indicator is left open (decision D18). -/
def Obligations.ThrottleHoldRowActs : Prop :=
  PhaseRowActs .phaseThrottleHold 0x4 .throttleHold .throttleRampDown (fun _ => 140) (fun c _ k =>
    if k = c.throttle then some 1400 else none) ∧
  PhaseRowSubmits .phaseThrottleHold .throttleHold
    ([(0, 992), (1, 992), (3, 992), (4, 172), (5, 172)] ++ restCentered)
    #v[0x0F, 0xE0, 0x03, 0x1F, 0x5E, 0xC1, 0xC7, 0x0A, 0x56, 0x80, 0x0F, 0x7C, 0xE0, 0x03, 0x1F, 0xF8, 0xC0, 0x07, 0x3E,
      0xF0, 0x81, 0x0F, 0x7C, 0x00, 0x00]

/-- 42_sequencer R110 (decision D9): the row for every RAMP_N, and with RAMP_N = 246 its 1230 ticks, its first value 1400
and its last value 175. -/
def Obligations.ThrottleRampDownRowActs : Prop :=
  PhaseRowActs .phaseThrottleRampDown 0x5 .throttleRampDown .throttleFloorHold (fun c => 5 * c.rampN) (fun c n k =>
    if k = c.throttle then some (1400 - 5 * ((n / 5 : Nat) : Int)) else none) ∧
  (∀ c : Config, c.rampN = 246 → phaseDur c .throttleRampDown = 1230) ∧
  (∀ n, n < 5 → rampDownValue n = 1400) ∧ (∀ n, 1225 ≤ n → n < 1230 → rampDownValue n = 175) ∧
  ∀ n, n < 1230 → rampDownValue n ≠ 172 ∧ rampDownValue (n + 5) = rampDownValue n - 5

/-- 42_sequencer R111. -/
def Obligations.ThrottleFloorHoldRowActs : Prop :=
  PhaseRowActs .phaseThrottleFloorHold 0x6 .throttleFloorHold .disarming (fun _ => 70) (fun c _ k =>
    if k = c.throttle then some 172 else none) ∧
  PhaseRowSubmits .phaseThrottleFloorHold .throttleFloorHold
    ([(0, 992), (1, 992), (3, 992), (4, 172), (5, 172)] ++ restCentered)
    #v[0x0F, 0xE0, 0x03, 0x1F, 0x2B, 0xC0, 0xC7, 0x0A, 0x56, 0x80, 0x0F, 0x7C, 0xE0, 0x03, 0x1F, 0xF8, 0xC0, 0x07, 0x3E,
      0xF0, 0x81, 0x0F, 0x7C, 0x00, 0x00]

/-- 42_sequencer R112. -/
def Obligations.DisarmingRowActs : Prop :=
  PhaseRowActs .phaseDisarming 0x7 .disarming .disarmedHold (fun _ => 150) (fun c _ k =>
    if k = c.throttle then some 172 else if k = c.yaw then some 172 else none) ∧
  PhaseRowSubmits .phaseDisarming .disarming ([(0, 992), (1, 992), (4, 172), (5, 172)] ++ restCentered)
    #v[0x0F, 0xE0, 0x03, 0x1F, 0x2B, 0x58, 0xC1, 0x0A, 0x56, 0x80, 0x0F, 0x7C, 0xE0, 0x03, 0x1F, 0xF8, 0xC0, 0x07, 0x3E,
      0xF0, 0x81, 0x0F, 0x7C, 0x00, 0x00]

/-- 42_sequencer R113. -/
def Obligations.DisarmedHoldRowActs : Prop :=
  PhaseRowActs .phaseDisarmedHold 0x8 .disarmedHold .done (fun _ => 70) (fun c _ k =>
    if k = c.yaw then some 992 else none) ∧
  PhaseRowSubmits .phaseDisarmedHold .disarmedHold ([(0, 992), (1, 992), (2, 172), (4, 172), (5, 172)] ++ restCentered)
    #v[0x0F, 0xE0, 0x03, 0x1F, 0x2B, 0xC0, 0xC7, 0x0A, 0x56, 0x80, 0x0F, 0x7C, 0xE0, 0x03, 0x1F, 0xF8, 0xC0, 0x07, 0x3E,
      0xF0, 0x81, 0x0F, 0x7C, 0x00, 0x00]

/-- 42_sequencer R115: Done acts on nothing, keeps its position until RESET, and lets the host write the bank. -/
def Obligations.DoneIsTerminal : Prop :=
  decodePhase 0x9 = .ok .phaseDone ∧
  (∀ s : State, exec .phaseDone s = .next s) ∧
  ∀ s : State, s.phase = .done → s.t = 0 →
    (∀ a : Answer, exec (.tick a) s = .next s) ∧
    (∀ i t, i ≠ .reset → exec i s = .next t → t.phase = .done ∧ t.t = 0) ∧
    (∀ j v : Int, ∃ t, exec (.set j v) s = .next t)

/-! ### Rules of the whole machine -/

/-- 42_sequencer R104 (decision D10): no operation but RESET moves the position otherwise than to its successor, and it
moves only when a frame went onto the wire; a TICK answered ok does move it, on the count alone; and the phase between two
ticks is the one whose row the next TICK performs. -/
def Obligations.PositionMovesOnlyForward : Prop :=
  (∀ (i : Instr) (s t : State), s.cfg.Legal → PositionLegal s → i ≠ .reset → exec i s = .next t →
    (t.phase = s.phase ∧ t.t = s.t ∧ t.wire = s.wire) ∨
    (IsRunning s ∧ t.wire.length = s.wire.length + 1 ∧ PositionAdvanced s t)) ∧
  (∀ s : State, s.cfg.Legal → PositionLegal s → IsRunning s →
    ∃ t, exec (.tick .ok) s = .next t ∧ PositionAdvanced s t) ∧
  (∀ (s : State) (a : Answer), IsRunning s →
    exec (.tick a) s = exec s.phase.instr { s with txFail := decide (a = .fail) })

/-- 42_sequencer R117: only TICK (and the row it performs) and RESET move the position, and a run goes on until it is
finished, aborted by the transport's fail, or reset. -/
def Obligations.NothingButTicksMovesTheSequencer : Prop :=
  ∀ (i : Instr) (s t : State), exec i s = .next t →
    ((t.phase, t.t) ≠ (s.phase, s.t) → i = .reset ∨ (∃ a, i = .tick a) ∨ ∃ p : Phase, i = p.instr) ∧
    (IsRunning s → ¬ IsRunning t →
      i = .reset ∨ (t.phase = .done ∧ t.fault = false ∧ t.wire ≠ s.wire) ∨ (t.fault = true ∧ t.txFail = true))

/-- 10_state R24, which the spec derives: any register is written by SET, a TICK writes role channels only. -/
def Obligations.TickWritesRoleChannelsOnly : Prop :=
  (∀ (s t : State) (a : Answer) (k : Fin 16), k ∉ s.cfg.roles → exec (.tick a) s = .next t → t.ch[k] = s.ch[k]) ∧
  (∀ (s t : State) (p : Phase) (k : Fin 16), k ∉ s.cfg.roles → exec p.instr s = .next t → t.ch[k] = s.ch[k]) ∧
  (∀ (s : State) (k : Fin 16) (v : Int), ¬ IsRunning s → 172 ≤ v → v ≤ 1811 →
    ∃ t, exec (.set (k.val : Int) v) s = .next t ∧ chan t.ch k = v)

/-- 20_memory R55 (decision D15): while running only a TICK, or RESET, writes the bank; reads are admitted at any time;
SET is admitted before START, after Done and after a fault. -/
def Obligations.RunningBankIsOwnedByTheSequencer : Prop :=
  (∀ (i : Instr) (s t : State), IsRunning s → exec i s = .next t → t.ch ≠ s.ch →
    i = .reset ∨ (∃ a, i = .tick a) ∨ i = s.phase.instr) ∧
  (∀ s : State, (∃ t, exec .snapshot s = .next t) ∧ (∃ t, exec .encode s = .next t) ∧
    ∀ k : Fin 16, ∃ t, exec (.get (k.val : Int)) s = .next t) ∧
  (∀ (s : State) (j v : Int), IsRunning s → exec (.set j v) s = .refused .setWhileRunning) ∧
  (∀ (s : State) (j v : Int), s.started = false ∨ s.phase = .done ∨ s.fault = true → ∃ t, exec (.set j v) s = .next t)

/-- 70_reset R161 and 10_state R27: only RESET clears `fault` or `started` or moves the position backwards; only START
sets `started`, only a TICK answered fail sets `fault`. -/
def Obligations.OnlyResetClearsStartedAndFault : Prop :=
  ∀ (i : Instr) (s t : State), s.cfg.Legal → PositionLegal s → exec i s = .next t →
    (i ≠ .reset → (s.started = true → t.started = true) ∧ (s.fault = true → t.fault = true) ∧
      s.phase.code.toNat ≤ t.phase.code.toNat ∧ (t.phase = s.phase → s.t.toNat ≤ t.t.toNat)) ∧
    (s.started = false → t.started = true → i = .start) ∧
    (s.fault = false → t.fault = true → IsRunning s ∧ t.txFail = true ∧
      ((i = .tick .fail) ∨ (i = s.phase.instr ∧ s.txFail = true)))

/-- 10_state R28 (decision D18): `led` is written only by a TICK in Neutral and ThrottleHold and by RESET, and nothing
depends on it: two states that differ only in `led` go through every operation alike. -/
def Obligations.NothingDependsOnTheIndicator : Prop :=
  (∀ (i : Instr) (s t : State), exec i s = .next t → t.led ≠ s.led →
    i = .reset ∨ (IsRunning s ∧ (s.phase = .neutral ∨ s.phase = .throttleHold) ∧
      (i = .tick .ok ∨ (i = s.phase.instr ∧ s.txFail = false)))) ∧
  (∀ (i : Instr) (s t : State) (b : Bool), exec i s = .next t → ∃ b', exec i { s with led := b } = .next { t with led := b' }) ∧
  (∀ (i : Instr) (s : State) (r : Refusal) (b : Bool), exec i s = .refused r → exec i { s with led := b } = .refused r)

/-- 10_state R20, R31, R32: the interface is no state. What an operation does to the core depends on the state of the core,
the parameters and, in the PHASE rows, the transport's answer alone; what a step does, on these and the event it takes. -/
def Obligations.TheInterfaceIsNoState : Prop :=
  (∀ (i : Instr) (s : State) (io : Interface), (io.txFail = s.txFail ∨ ∀ p : Phase, i ≠ p.instr) →
    (∀ t, exec i s = .next t → ∃ u, exec i { s with toInterface := io } = .next u ∧
      u.toCoreState = t.toCoreState ∧ u.cfg = t.cfg) ∧
    (∀ r, exec i s = .refused r → exec i { s with toInterface := io } = .refused r)) ∧
  (∀ (s t : State) (io : Interface) (w : CmdWord) (rest rest' : List CmdWord), s.events = w :: rest →
    io.events = w :: rest' → step s = .next t → ∃ u, step { s with toInterface := io } = .next u ∧
      u.toCoreState = t.toCoreState ∧ u.cfg = t.cfg)

/-- 00_scope R8, R54: no operation changes a parameter, and TICK and its rows leave the pending events alone. The event
list is the model's (log entry 1). -/
def Obligations.NoOperationChangesTheParameters : Prop :=
  ∀ (i : Instr) (s t : State), exec i s = .next t → t.cfg = s.cfg ∧ t.events = s.events

/-! ### The exception -/

/-- 60_exceptions R143 (decision D12): what TransportFailed writes and what it leaves; the core stops being running. -/
def Obligations.TransportFailedIsTakenPrecisely : Prop :=
  ∀ s : State, IsRunning s → ∃ t, exec (.tick .fail) s = .next t ∧
    t.fault = true ∧ t.wire = s.wire ∧ t.phase = s.phase ∧ t.t = s.t ∧ t.led = s.led ∧ t.started = s.started ∧
    (∃ u, exec (.tick .ok) s = .next u ∧ t.ch = u.ch) ∧
    t.faultSignal = s.cfg.faultTransport ∧ ¬ IsRunning t ∧
    ∀ a : Answer, exec (.tick a) t = .next t

/-- 60_exceptions R144, R145, which rests on R143, R101 and R102: after the fault no TICK does anything, reads and NOP
work, SET is admitted, START is refused, and only RESET clears `fault`. -/
def Obligations.AfterAFaultOnlyResetStartsAgain : Prop :=
  ∀ s : State, s.fault = true → RunStateLegal s →
    (∀ a : Answer, exec (.tick a) s = .next s) ∧ exec .start s = .refused .alreadyStarted ∧ exec .nop s = .next s ∧
    (∀ i ∈ [Instr.snapshot, Instr.encode], ∃ o, exec i s = .next { s with out := o }) ∧
    (∀ k : Fin 16, exec (.get (k.val : Int)) s = .next { s with out := .rdData s.ch[k] }) ∧
    (∀ j v : Int, ∃ b, exec (.set j v) s = .next { s with ch := b }) ∧
    (∀ i t, exec i s = .next t → i ≠ .reset → t.fault = true) ∧
    (∃ t, exec .reset s = .next t ∧ t.fault = false ∧ t.started = false)

/-! ### Reset -/

/-- 70_reset R160 (D19): every field of R20 and the wire at its reset value, in every state, also while running. The
events still pending, the pins, the result outputs and the parameters are the model's interface and stay (log entries 1
to 4). -/
def Obligations.ResetRestoresEveryField : Prop :=
  (∀ c, decodeCmd c 0xF0000000 = .ok .reset) ∧
  (∀ s : State, exec .reset s =
    .next { State.reset with events := s.events, txFail := s.txFail, out := s.out, cfg := s.cfg }) ∧
  (∀ (s : State) (p : Pins), p.rst = true → (s.present p).events = s.events ++ [0xF0000000])

/-- 10_state R34 (the channel default is D0's, the rest the spec's decision D19): the reset value of every field of R20 and
of the wire, after RESET in any state and in the state the model starts in. -/
def Obligations.ResetStateHoldsTheSpecsValues : Prop :=
  ∀ s : State, ∃ t, exec .reset s = .next t ∧ ∀ u ∈ [t, State.reset],
    (∀ k : Fin 16, chan u.ch k = 992) ∧ u.started = false ∧ u.phase.code = 0 ∧ u.t = 0 ∧ u.fault = false ∧
    u.led = false ∧ u.wire = []

/-! ### Invariants -/

/-- The invariants below hold at reset. -/
def Obligations.ResetMeetsTheInvariants : Prop :=
  State.reset.cfg.Legal ∧ BankInRange State.reset.ch ∧ RunStateLegal State.reset ∧ PositionLegal State.reset ∧
  WireLegal State.reset ∧ ThrottleBounded State.reset ∧ RunBankFollowsPosition State.reset

/-- 10_state R22: the range holds after reset, and no step breaks it, from any state that has it. -/
def Obligations.EveryStepKeepsTheBankInRange : Prop :=
  BankInRange State.reset.ch ∧ ∀ s t : State, BankInRange s.ch → step s = .next t → BankInRange t.ch

/-- 10_state R26, R27: the run state stays one of the four, the position stays legal. -/
def Obligations.EveryStepKeepsRunStateAndPositionLegal : Prop :=
  ∀ s t : State, s.cfg.Legal → RunStateLegal s → PositionLegal s → step s = .next t →
    t.cfg.Legal ∧ RunStateLegal t ∧ PositionLegal t

/-- 30_encoding R61, R69: every frame ever put on the wire is legal. -/
def Obligations.EveryStepKeepsTheWireLegal : Prop :=
  ∀ s t : State, BankInRange s.ch → WireLegal s → step s = .next t → BankInRange t.ch ∧ WireLegal t

/-- 70_reset R169: "throttle never exceeds 1400 in any frame". -/
def Obligations.EveryStepKeepsTheThrottleBounded : Prop :=
  ∀ s t : State, s.cfg.Legal → RunStateLegal s → PositionLegal s → ThrottleBounded s → step s = .next t →
    ThrottleBounded t

/-- 10_state R35, which the spec derives from R105 to R113: while the core runs, the role channels are a function of the
position. -/
def Obligations.EveryStepKeepsTheBankAFunctionOfThePosition : Prop :=
  ∀ s t : State, s.cfg.Legal → RunStateLegal s → PositionLegal s → RunBankFollowsPosition s → step s = .next t →
    RunBankFollowsPosition t

/-! ### A whole run -/

/-- 42_sequencer R116, which the spec derives: `k` ticks after the start of a run, `k` ticks lie behind the position and
`k` frames went out; with `k = 3250` the run is done. From any state at the start of a run, any roles. -/
def Obligations.PositionCountsTheTicksOfTheRun : Prop :=
  ∀ (s : State) (k : Nat) (rest : List CmdWord), s.cfg.Legal → s.cfg.rampN = 246 → k ≤ 3250 →
    s.started = true → s.fault = false → s.phase = .neutral → s.t = 0 → s.events = okTicks k rest →
    ∃ t : State, Sys2Proof.core.run k s = .next t ∧ t.started = true ∧ t.fault = false ∧ elapsed t = k ∧ PositionLegal t ∧
      t.events = rest ∧ t.wire.length = s.wire.length + k ∧ (k = 3250 → t.phase = .done)

/-- 10_state R36 (derived by the spec): the final state of a complete run with the default roles, from `START` in the
reset state and no host write. -/
def Obligations.CompleteRunEndsInTheRestingState : Prop :=
  ∀ (s : State) (rest : List CmdWord), s.cfg.Legal → s.cfg.rampN = 246 →
    s.started = false → s.fault = false → s.phase = .neutral → s.t = 0 →
    s.events = 0x50000000 :: okTicks 3250 rest →
    ∃ t : State, Sys2Proof.core.run 3251 s = .next t ∧ t.phase = .done ∧ t.t = 0 ∧ t.started = true ∧ t.fault = false ∧
      t.framesSent = s.framesSent + 3250 ∧ RolesAfter s.cfg t.ch .disarmedHold 69 ∧
      (∀ k : Fin 16, k ∉ s.cfg.roles → t.ch[k] = s.ch[k])

/-- 42_sequencer R118 (derived by the spec): the throttle and yaw fields of every frame of a complete run. -/
def Obligations.WireOfACompleteRunFollowsTheTable : Prop :=
  ∀ (s : State) (rest : List CmdWord), s.cfg.Legal → s.cfg.rampN = 246 →
    s.started = true → s.fault = false → s.phase = .neutral → s.t = 0 → s.events = okTicks 3250 rest →
    ∃ (t : State) (fs : List Frame), Sys2Proof.core.run 3250 s = .next t ∧ t.wire = s.wire ++ fs ∧ fs.length = 3250 ∧
      ∀ (j : Nat) (f : Frame), fs[j]? = some f →
        unpackField f s.cfg.throttle.val = wireThrottle j ∧ unpackField f s.cfg.yaw.val = wireYaw j
end

