-- ==== Sys2Proof/Laws/State.lean ====
section
/-! SUPPORT. One lemma per field per update of the state, true by rfl, so that no proof unfolds a record update. -/

namespace Sys2Proof.Machine

section withBank
variable (s : State) (b : Bank)

@[simp] theorem withBank_ch : (s.withBank b).ch = b := rfl
@[simp] theorem withBank_started : (s.withBank b).started = s.started := rfl
@[simp] theorem withBank_phase : (s.withBank b).phase = s.phase := rfl
@[simp] theorem withBank_t : (s.withBank b).t = s.t := rfl
@[simp] theorem withBank_fault : (s.withBank b).fault = s.fault := rfl
@[simp] theorem withBank_led : (s.withBank b).led = s.led := rfl
@[simp] theorem withBank_wire : (s.withBank b).wire = s.wire := rfl
@[simp] theorem withBank_events : (s.withBank b).events = s.events := rfl
@[simp] theorem withBank_txFail : (s.withBank b).txFail = s.txFail := rfl
@[simp] theorem withBank_out : (s.withBank b).out = s.out := rfl
@[simp] theorem withBank_cfg : (s.withBank b).cfg = s.cfg := rfl

end withBank

section drive
variable (s : State) (o : Output)

@[simp] theorem drive_ch : (s.drive o).ch = s.ch := rfl
@[simp] theorem drive_started : (s.drive o).started = s.started := rfl
@[simp] theorem drive_phase : (s.drive o).phase = s.phase := rfl
@[simp] theorem drive_t : (s.drive o).t = s.t := rfl
@[simp] theorem drive_fault : (s.drive o).fault = s.fault := rfl
@[simp] theorem drive_led : (s.drive o).led = s.led := rfl
@[simp] theorem drive_wire : (s.drive o).wire = s.wire := rfl
@[simp] theorem drive_events : (s.drive o).events = s.events := rfl
@[simp] theorem drive_txFail : (s.drive o).txFail = s.txFail := rfl
@[simp] theorem drive_out : (s.drive o).out = o := rfl
@[simp] theorem drive_cfg : (s.drive o).cfg = s.cfg := rfl

end drive

section appendWire
variable (s : State) (f : Frame)

@[simp] theorem appendWire_ch : (s.appendWire f).ch = s.ch := rfl
@[simp] theorem appendWire_started : (s.appendWire f).started = s.started := rfl
@[simp] theorem appendWire_phase : (s.appendWire f).phase = s.phase := rfl
@[simp] theorem appendWire_t : (s.appendWire f).t = s.t := rfl
@[simp] theorem appendWire_fault : (s.appendWire f).fault = s.fault := rfl
@[simp] theorem appendWire_led : (s.appendWire f).led = s.led := rfl
@[simp] theorem appendWire_wire : (s.appendWire f).wire = s.wire ++ [f] := rfl
@[simp] theorem appendWire_events : (s.appendWire f).events = s.events := rfl
@[simp] theorem appendWire_txFail : (s.appendWire f).txFail = s.txFail := rfl
@[simp] theorem appendWire_out : (s.appendWire f).out = s.out := rfl
@[simp] theorem appendWire_cfg : (s.appendWire f).cfg = s.cfg := rfl

end appendWire

section withLed
variable (s : State) (b : Bool)

@[simp] theorem withLed_ch : (s.withLed b).ch = s.ch := rfl
@[simp] theorem withLed_started : (s.withLed b).started = s.started := rfl
@[simp] theorem withLed_phase : (s.withLed b).phase = s.phase := rfl
@[simp] theorem withLed_t : (s.withLed b).t = s.t := rfl
@[simp] theorem withLed_fault : (s.withLed b).fault = s.fault := rfl
@[simp] theorem withLed_led : (s.withLed b).led = b := rfl
@[simp] theorem withLed_wire : (s.withLed b).wire = s.wire := rfl
@[simp] theorem withLed_events : (s.withLed b).events = s.events := rfl
@[simp] theorem withLed_txFail : (s.withLed b).txFail = s.txFail := rfl
@[simp] theorem withLed_out : (s.withLed b).out = s.out := rfl
@[simp] theorem withLed_cfg : (s.withLed b).cfg = s.cfg := rfl

end withLed

section setPos
variable (s : State) (p : Phase) (n : Nat)

@[simp] theorem setPos_ch : (s.setPos p n).ch = s.ch := rfl
@[simp] theorem setPos_started : (s.setPos p n).started = s.started := rfl
@[simp] theorem setPos_phase : (s.setPos p n).phase = p := rfl
@[simp] theorem setPos_t : (s.setPos p n).t = BitVec.ofNat 11 n := rfl
@[simp] theorem setPos_fault : (s.setPos p n).fault = s.fault := rfl
@[simp] theorem setPos_led : (s.setPos p n).led = s.led := rfl
@[simp] theorem setPos_wire : (s.setPos p n).wire = s.wire := rfl
@[simp] theorem setPos_events : (s.setPos p n).events = s.events := rfl
@[simp] theorem setPos_txFail : (s.setPos p n).txFail = s.txFail := rfl
@[simp] theorem setPos_out : (s.setPos p n).out = s.out := rfl
@[simp] theorem setPos_cfg : (s.setPos p n).cfg = s.cfg := rfl

end setPos

section markStarted
variable (s : State)

@[simp] theorem markStarted_ch : (s.markStarted).ch = s.ch := rfl
@[simp] theorem markStarted_started : (s.markStarted).started = true := rfl
@[simp] theorem markStarted_phase : (s.markStarted).phase = s.phase := rfl
@[simp] theorem markStarted_t : (s.markStarted).t = s.t := rfl
@[simp] theorem markStarted_fault : (s.markStarted).fault = s.fault := rfl
@[simp] theorem markStarted_led : (s.markStarted).led = s.led := rfl
@[simp] theorem markStarted_wire : (s.markStarted).wire = s.wire := rfl
@[simp] theorem markStarted_events : (s.markStarted).events = s.events := rfl
@[simp] theorem markStarted_txFail : (s.markStarted).txFail = s.txFail := rfl
@[simp] theorem markStarted_out : (s.markStarted).out = s.out := rfl
@[simp] theorem markStarted_cfg : (s.markStarted).cfg = s.cfg := rfl

end markStarted

section latchAnswer
variable (s : State) (a : Answer)

@[simp] theorem latchAnswer_ch : (s.latchAnswer a).ch = s.ch := rfl
@[simp] theorem latchAnswer_started : (s.latchAnswer a).started = s.started := rfl
@[simp] theorem latchAnswer_phase : (s.latchAnswer a).phase = s.phase := rfl
@[simp] theorem latchAnswer_t : (s.latchAnswer a).t = s.t := rfl
@[simp] theorem latchAnswer_fault : (s.latchAnswer a).fault = s.fault := rfl
@[simp] theorem latchAnswer_led : (s.latchAnswer a).led = s.led := rfl
@[simp] theorem latchAnswer_wire : (s.latchAnswer a).wire = s.wire := rfl
@[simp] theorem latchAnswer_events : (s.latchAnswer a).events = s.events := rfl
@[simp] theorem latchAnswer_txFail : (s.latchAnswer a).txFail = decide (a = .fail) := rfl
@[simp] theorem latchAnswer_out : (s.latchAnswer a).out = s.out := rfl
@[simp] theorem latchAnswer_cfg : (s.latchAnswer a).cfg = s.cfg := rfl

end latchAnswer

section raiseTransportFailed
variable (s : State)

@[simp] theorem raiseTransportFailed_ch : (raiseTransportFailed s).ch = s.ch := rfl
@[simp] theorem raiseTransportFailed_started : (raiseTransportFailed s).started = s.started := rfl
@[simp] theorem raiseTransportFailed_phase : (raiseTransportFailed s).phase = s.phase := rfl
@[simp] theorem raiseTransportFailed_t : (raiseTransportFailed s).t = s.t := rfl
@[simp] theorem raiseTransportFailed_fault : (raiseTransportFailed s).fault = true := rfl
@[simp] theorem raiseTransportFailed_led : (raiseTransportFailed s).led = s.led := rfl
@[simp] theorem raiseTransportFailed_wire : (raiseTransportFailed s).wire = s.wire := rfl
@[simp] theorem raiseTransportFailed_events : (raiseTransportFailed s).events = s.events := rfl
@[simp] theorem raiseTransportFailed_txFail : (raiseTransportFailed s).txFail = s.txFail := rfl
@[simp] theorem raiseTransportFailed_out : (raiseTransportFailed s).out = s.out := rfl
@[simp] theorem raiseTransportFailed_cfg : (raiseTransportFailed s).cfg = s.cfg := rfl

end raiseTransportFailed

section resetCore
variable (s : State)

@[simp] theorem resetCore_ch : (resetCore s).ch = Vector.replicate 16 992#11 := rfl
@[simp] theorem resetCore_started : (resetCore s).started = false := rfl
@[simp] theorem resetCore_phase : (resetCore s).phase = .neutral := rfl
@[simp] theorem resetCore_t : (resetCore s).t = 0 := rfl
@[simp] theorem resetCore_fault : (resetCore s).fault = false := rfl
@[simp] theorem resetCore_led : (resetCore s).led = false := rfl
@[simp] theorem resetCore_wire : (resetCore s).wire = [] := rfl
@[simp] theorem resetCore_events : (resetCore s).events = s.events := rfl
@[simp] theorem resetCore_txFail : (resetCore s).txFail = s.txFail := rfl
@[simp] theorem resetCore_out : (resetCore s).out = s.out := rfl
@[simp] theorem resetCore_cfg : (resetCore s).cfg = s.cfg := rfl

end resetCore

section dropEvent
variable (s : State)

@[simp] theorem dropEvent_ch : (dropEvent s).ch = s.ch := rfl
@[simp] theorem dropEvent_started : (dropEvent s).started = s.started := rfl
@[simp] theorem dropEvent_phase : (dropEvent s).phase = s.phase := rfl
@[simp] theorem dropEvent_t : (dropEvent s).t = s.t := rfl
@[simp] theorem dropEvent_fault : (dropEvent s).fault = s.fault := rfl
@[simp] theorem dropEvent_led : (dropEvent s).led = s.led := rfl
@[simp] theorem dropEvent_wire : (dropEvent s).wire = s.wire := rfl
@[simp] theorem dropEvent_events : (dropEvent s).events = s.events.drop 1 := rfl
@[simp] theorem dropEvent_txFail : (dropEvent s).txFail = s.txFail := rfl
@[simp] theorem dropEvent_out : (dropEvent s).out = .idle := rfl
@[simp] theorem dropEvent_cfg : (dropEvent s).cfg = s.cfg := rfl

end dropEvent

/-! ### The two parts: which updates touch the core, which the interface -/

section parts
variable (s : State)

@[simp] theorem withBank_toInterface (b : Bank) : (s.withBank b).toInterface = s.toInterface := rfl
@[simp] theorem withLed_toInterface (b : Bool) : (s.withLed b).toInterface = s.toInterface := rfl
@[simp] theorem appendWire_toInterface (f : Frame) : (s.appendWire f).toInterface = s.toInterface := rfl
@[simp] theorem setPos_toInterface (p : Phase) (n : Nat) : (s.setPos p n).toInterface = s.toInterface := rfl
@[simp] theorem markStarted_toInterface : s.markStarted.toInterface = s.toInterface := rfl
@[simp] theorem raiseTransportFailed_toInterface : (raiseTransportFailed s).toInterface = s.toInterface := rfl
@[simp] theorem resetCore_toInterface : (resetCore s).toInterface = s.toInterface := rfl
@[simp] theorem drive_toCoreState (o : Output) : (s.drive o).toCoreState = s.toCoreState := rfl
@[simp] theorem latchAnswer_toCoreState (a : Answer) : (s.latchAnswer a).toCoreState = s.toCoreState := rfl
@[simp] theorem dropEvent_toCoreState : (dropEvent s).toCoreState = s.toCoreState := rfl
@[simp] theorem present_toCoreState (p : Pins) : (s.present p).toCoreState = s.toCoreState := rfl

/-- RESET leaves the state of the core that the model starts in (70_reset R160). -/
@[simp] theorem resetCore_toCoreState : (resetCore s).toCoreState = State.reset.toCoreState := rfl

end parts

end Sys2Proof.Machine
end

