-- ==== Sys2Proof/Laws/Bank.lean ====
section
/-! SUPPORT. What the operand forms and the bank operations can do, once: proofs cite these and do not unfold them. -/

namespace Sys2Proof.Machine

/-! ### Clamp and index -/

theorem clampRaw_eq (v : Int) : clampRaw v = if v < 172 then 172 else if 1811 < v then 1811 else v := by
  rfl

theorem clampRaw_of_lt {v : Int} (h : v < 172) : clampRaw v = 172 := by
  rw [clampRaw_eq]
  exact if_pos h

theorem clampRaw_of_gt {v : Int} (h : 1811 < v) : clampRaw v = 1811 := by
  rw [clampRaw_eq]
  split_ifs <;> omega

theorem clampRaw_of_mem {v : Int} (h : 172 ≤ v) (h' : v ≤ 1811) : clampRaw v = v := by
  rw [clampRaw_eq]
  split_ifs <;> omega

theorem clampRaw_range (v : Int) : 172 ≤ clampRaw v ∧ clampRaw v ≤ 1811 := by
  by_cases h : v < 172
  · simp [clampRaw_of_lt h]
  · by_cases h' : 1811 < v
    · simp [clampRaw_of_gt h']
    · rw [clampRaw_of_mem (by omega) (by omega)]
      omega

theorem chanIndex_eq_some {i : Int} {k : Fin 16} : chanIndex i = some k ↔ (k.val : Int) = i := by
  unfold chanIndex
  split
  · rename_i h
    simp only [Option.some.injEq, Fin.ext_iff]
    omega
  · rename_i h
    simp only [reduceCtorEq, false_iff]
    omega

theorem chanIndex_eq_none {i : Int} : chanIndex i = none ↔ i < 0 ∨ 15 < i := by
  unfold chanIndex
  split
  · rename_i h
    simp only [reduceCtorEq, false_iff]
    omega
  · rename_i h
    simp only [true_iff]
    omega

theorem chanIndex_val (k : Fin 16) : chanIndex (k.val : Int) = some k := chanIndex_eq_some.2 rfl

theorem toChan_toNat {v : Int} (h : 0 ≤ v) (h' : v < 2048) : ((toChan v).toNat : Int) = v := by
  simp only [toChan, BitVec.toNat_ofInt]
  omega

/-! ### Reads after writes -/

theorem chan_eq (b : Bank) (k : Fin 16) : chan b k = (b[k].toNat : Int) := rfl

/-- The values of the sixteen channels determine the bank. -/
theorem bank_ext {b c : Bank} (h : ∀ k, chan b k = chan c k) : b = c := by
  apply Vector.ext
  intro i hi
  have := h ⟨i, hi⟩
  simp only [chan, readChan] at this
  exact BitVec.eq_of_toNat_eq (by exact_mod_cast this)

theorem readChan_writeChan (b : Bank) (k j : Fin 16) (v : Int) :
    readChan (writeChan b k v) j = if j = k then toChan v else readChan b j := by
  simp only [readChan, writeChan, Fin.getElem_fin, Vector.getElem_set, Fin.ext_iff]
  split <;> split <;> simp_all

/-- THE BANK'S `set`: the addressed channel holds the clamped value, every other channel what it held. -/
theorem chan_bankSet (b : Bank) (i v : Int) (j : Fin 16) :
    chan (bankSet b i v) j = if (j.val : Int) = i then clampRaw v else chan b j := by
  unfold bankSet
  split
  · rename_i k hk
    have hk := chanIndex_eq_some.1 hk
    have hr := clampRaw_range v
    simp only [chan, readChan_writeChan]
    by_cases hj : j = k
    · subst hj
      simp only [if_true, if_pos hk]
      exact toChan_toNat (by omega) (by omega)
    · have : (j.val : Int) ≠ i := by
        intro h
        exact hj (Fin.ext (by omega))
      simp only [if_neg hj, if_neg this]
  · rename_i hn
    have hn := chanIndex_eq_none.1 hn
    have : (j.val : Int) ≠ i := by omega
    simp only [if_neg this]

theorem chan_bankSet_val (b : Bank) (k : Fin 16) (v : Int) (j : Fin 16) :
    chan (bankSet b (k.val : Int) v) j = if j = k then clampRaw v else chan b j := by
  rw [chan_bankSet]
  have : ((j.val : Int) = (k.val : Int)) ↔ j = k := by
    rw [Fin.ext_iff]
    omega
  simp only [this]

@[simp] theorem bankSetAll_nil (b : Bank) : bankSetAll b [] = b := rfl

theorem bankSetAll_cons (b : Bank) (k : Fin 16) (v : Int) (rest : List (Fin 16 × Int)) :
    bankSetAll b ((k, v) :: rest) = bankSetAll (bankSet b (k.val : Int) v) rest := rfl

/-- A channel no write of the list names keeps its value. -/
theorem chan_bankSetAll_of_not_mem (ws : List (Fin 16 × Int)) (b : Bank) (j : Fin 16)
    (h : j ∉ ws.map Prod.fst) : chan (bankSetAll b ws) j = chan b j := by
  induction ws generalizing b with
  | nil => rfl
  | cons w rest ih =>
    obtain ⟨k, v⟩ := w
    simp only [List.map_cons, List.mem_cons, not_or] at h
    rw [bankSetAll_cons, ih _ h.2, chan_bankSet_val, if_neg h.1]

theorem bankInRange_bankSet {b : Bank} (h : BankInRange b) (i v : Int) : BankInRange (bankSet b i v) := by
  intro k
  rw [chan_bankSet]
  split
  · exact clampRaw_range v
  · exact h k

theorem bankInRange_bankSetAll (ws : List (Fin 16 × Int)) {b : Bank} (h : BankInRange b) :
    BankInRange (bankSetAll b ws) := by
  induction ws generalizing b with
  | nil => exact h
  | cons w rest ih => exact ih (bankInRange_bankSet h _ _)

/-! ### The snapshot and MemRead -/

theorem snapshotOf_get (b : Bank) (k : Fin 16) : (snapshotOf b)[k] = chan b k := by
  simp [snapshotOf, chan]

/-- `GET` is `MemRead(i, 1)` (00_scope R11). -/
theorem memRead_one (b : Bank) (k : Fin 16) : memRead b k.val 1 = [readChan b k] := by
  have hk : k.val < b.toList.length := by simp
  simp [memRead, readChan, List.take_one, List.head?_drop]

/-- `SNAPSHOT` is `MemRead(0, 16)` (00_scope R11). -/
theorem memRead_all (b : Bank) : memRead b 0 16 = b.toList := by
  have : b.toList.length = 16 := by simp
  simp [memRead, List.take_of_length_le, this]

end Sys2Proof.Machine
end

