-- ==== Sys2Proof/Laws/Codec.lean ====
section
/-! SUPPORT. Bounds and shape of Encode, once. -/

namespace Sys2Proof.Machine

theorem maskField_lt (x : Int) : maskField x < 2048 := by
  unfold maskField
  omega

theorem maskField_int (x : Int) : (maskField x : Int) = x % 2048 := by
  unfold maskField
  omega

theorem packFields_lt (l : List Int) : packFields l < 2 ^ (11 * l.length) := by
  induction l with
  | nil => simp [packFields]
  | cons x rest ih =>
    have hx := maskField_lt x
    have : 2 ^ (11 * (rest.length + 1)) = 2 ^ 11 * 2 ^ (11 * rest.length) := by
      rw [← pow_add]
      congr 1
      ring
    simp only [packFields, List.length_cons, this]
    omega

/-- The field `k` of a payload number is the masked value of input `k`. -/
theorem packFields_field (l : List Int) (k : Nat) (hk : k < l.length) :
    packFields l / 2 ^ (11 * k) % 2 ^ 11 = maskField l[k] := by
  induction l generalizing k with
  | nil => simp at hk
  | cons x rest ih =>
    have hx := maskField_lt x
    cases k with
    | zero =>
      simp only [packFields, List.getElem_cons_zero]
      omega
    | succ k =>
      have hk' : k < rest.length := by simpa using hk
      have hdiv : packFields (x :: rest) / 2 ^ 11 = packFields rest := by
        simp only [packFields]
        omega
      have hp : 2 ^ (11 * (k + 1)) = 2 ^ 11 * 2 ^ (11 * k) := by
        rw [← pow_add]
        congr 1
        ring
      rw [hp, ← Nat.div_div_eq_div_mul, hdiv, List.getElem_cons_succ]
      exact ih k hk'

theorem frameOf_get (p : Nat) (j : Nat) (hj : j < 25) :
    (frameOf p)[j] = if j = 0 then 0x0F else if j ≤ 22 then payloadByte p (j - 1) else 0x00 := by
  simp only [frameOf, Vector.getElem_ofFn, startByte, flagByte, endByte]
  split
  · rfl
  · split
    · rfl
    · split <;> rfl

theorem payloadByte_toNat (p i : Nat) : (payloadByte p i).toNat = p / 2 ^ (8 * i) % 256 := by
  simp [payloadByte]

theorem encodeFrame_congr {s u : Vector Int 16} (h : ∀ k : Fin 16, s[k] = u[k]) : encodeFrame s = encodeFrame u := by
  have : s = u := Vector.ext fun i hi => h ⟨i, hi⟩
  rw [this]

end Sys2Proof.Machine
end

