-- ==== Sys2Proof/Laws/Decode.lean ====
section
/-! SUPPORT. The fields of a command word as arithmetic on its number, and of a word put together from its fields; what the
operand widths admit; the words without an operand, which every machine decodes alike. -/

namespace Sys2Proof

theorem opField_toNat (w : CmdWord) : (opField w).toNat = w.toNat / 2 ^ 28 := by
  have := w.isLt
  simp only [opField, BitVec.extractLsb'_toNat, Nat.shiftRight_eq_div_pow]
  omega

theorem zField_toNat (w : CmdWord) : (zField w).toNat = w.toNat / 2 ^ 24 % 16 := by
  simp only [zField, BitVec.extractLsb'_toNat, Nat.shiftRight_eq_div_pow]

theorem idxField_toNat (w : CmdWord) : (idxField w).toNat = w.toNat / 2 ^ 16 % 256 := by
  simp only [idxField, BitVec.extractLsb'_toNat, Nat.shiftRight_eq_div_pow]

theorem datField_toNat (w : CmdWord) : (datField w).toNat = w.toNat % 2 ^ 16 := by
  simp only [datField, BitVec.extractLsb'_toNat, Nat.shiftRight_eq_div_pow, pow_zero, Nat.div_one]

theorem cmdWord_toNat (op z : BitVec 4) (idx : BitVec 8) (dat : BitVec 16) :
    (cmdWord op z idx dat).toNat = op.toNat * 2 ^ 28 + z.toNat * 2 ^ 24 + idx.toNat * 2 ^ 16 + dat.toNat := by
  have := op.isLt
  have := z.isLt
  have := idx.isLt
  have := dat.isLt
  simp only [cmdWord, BitVec.toNat_ofNat]
  omega

theorem opField_cmdWord (op z : BitVec 4) (idx : BitVec 8) (dat : BitVec 16) : opField (cmdWord op z idx dat) = op := by
  apply BitVec.eq_of_toNat_eq
  rw [opField_toNat, cmdWord_toNat]
  have := z.isLt
  have := idx.isLt
  have := dat.isLt
  omega

theorem zField_cmdWord (op z : BitVec 4) (idx : BitVec 8) (dat : BitVec 16) : zField (cmdWord op z idx dat) = z := by
  apply BitVec.eq_of_toNat_eq
  rw [zField_toNat, cmdWord_toNat]
  have := z.isLt
  have := idx.isLt
  have := dat.isLt
  omega

theorem idxField_cmdWord (op z : BitVec 4) (idx : BitVec 8) (dat : BitVec 16) :
    idxField (cmdWord op z idx dat) = idx := by
  apply BitVec.eq_of_toNat_eq
  rw [idxField_toNat, cmdWord_toNat]
  have := idx.isLt
  have := dat.isLt
  omega

theorem datField_cmdWord (op z : BitVec 4) (idx : BitVec 8) (dat : BitVec 16) :
    datField (cmdWord op z idx dat) = dat := by
  apply BitVec.eq_of_toNat_eq
  rw [datField_toNat, cmdWord_toNat]
  have := dat.isLt
  omega

/-- A command word is put together from its fields. -/
theorem cmdWord_fields (w : CmdWord) : cmdWord (opField w) (zField w) (idxField w) (datField w) = w := by
  apply BitVec.eq_of_toNat_eq
  rw [cmdWord_toNat, opField_toNat, zField_toNat, idxField_toNat, datField_toNat]
  omega

/-! ### The operand widths -/

theorem fitsSigned_iff (w : Nat) (x : Int) :
    fitsSigned w x = true ↔ -(2 : Int) ^ (w - 1) ≤ x ∧ x < (2 : Int) ^ (w - 1) := by
  simp [fitsSigned]

/-- What `admitOperands` can answer: the instruction itself when its operands fit, else the refusal. -/
theorem admitOperands_eq_ok {c : Config} {i j : Instr} : admitOperands c i = .ok j ↔ i = j ∧ wellFormed c i = true := by
  unfold admitOperands
  split <;> simp_all

theorem admitOperands_of_not {c : Config} {i : Instr} (h : wellFormed c i = false) :
    admitOperands c i = .error .operandTooWide := by
  simp [admitOperands, h]

/-! ### Words without an operand -/

section noOperand
variable (c : Config)

@[simp] theorem decodeCmd_nop : decodeCmd c (cmdWord 0x0 0 0 0) = .ok .nop := rfl
@[simp] theorem decodeCmd_snapshot : decodeCmd c (cmdWord 0x3 0 0 0) = .ok .snapshot := rfl
@[simp] theorem decodeCmd_encode : decodeCmd c (cmdWord 0x4 0 0 0) = .ok .encode := rfl
@[simp] theorem decodeCmd_start : decodeCmd c (cmdWord 0x5 0 0 0) = .ok .start := rfl
@[simp] theorem decodeCmd_tick_ok : decodeCmd c (cmdWord 0x6 0 0 0) = .ok (.tick .ok) := rfl
@[simp] theorem decodeCmd_tick_fail : decodeCmd c (cmdWord 0x6 0 0 1) = .ok (.tick .fail) := rfl
@[simp] theorem decodeCmd_reset : decodeCmd c (cmdWord 0xF 0 0 0) = .ok .reset := rfl

end noOperand

end Sys2Proof
end

