-- ==== Sys2Proof/Laws/Step.lean ====
section
/-! SUPPORT. What an iteration, an operation and a step can do, once. -/

namespace Sys2Proof.Machine

/-! ### Running -/

theorem running_iff (s : State) : s.running = true ↔ IsRunning s := by
  simp [State.running, IsRunning, and_assoc]

theorem running_false_iff (s : State) : s.running = false ↔ ¬ IsRunning s := by
  rw [← running_iff, Bool.not_eq_true]

theorem latchAnswer_running (s : State) (a : Answer) : (s.latchAnswer a).running = s.running := rfl

/-! ### One iteration of the send loop -/

/-- The bank of an iteration: the row's writes on the state's bank. -/
def actedBank (p : Phase) (s : State) : Bank := bankSetAll s.ch (phaseWrites s.cfg p s.t.toNat)

/-- The frame of an iteration. -/
def actedFrame (p : Phase) (s : State) : Frame := encodeFrame (snapshotOf (actedBank p s))

/-- An iteration answered fail (60_exceptions R143): the row's writes and the fault flag. -/
theorem iteration_fail (p : Phase) (s : State) (h : s.txFail = true) :
    iteration p s = { s with ch := actedBank p s, out := .txFrame (actedFrame p s), fault := true } := by
  simp [iteration, submit, State.drive, State.withBank, h, raiseTransportFailed, actedBank, actedFrame]

/-- An iteration answered ok that is not the last of its phase. -/
theorem iteration_ok_stay (p : Phase) (s : State) (h : s.txFail = false) (hn : s.t.toNat + 1 < phaseDur s.cfg p) :
    iteration p s = { s with
      ch := actedBank p s, out := .txFrame (actedFrame p s), wire := s.wire ++ [actedFrame p s],
      led := ledAfter s.cfg p s.t.toNat s.led, phase := p, t := BitVec.ofNat 11 (s.t.toNat + 1) } := by
  simp [iteration, submit, State.drive, State.withBank, h, State.appendWire, State.withLed, advance, hn, State.setPos,
    actedBank, actedFrame]

/-- An iteration answered ok that is the last of its phase. -/
theorem iteration_ok_last (p : Phase) (s : State) (h : s.txFail = false) (hn : ¬ s.t.toNat + 1 < phaseDur s.cfg p) :
    iteration p s = { s with
      ch := actedBank p s, out := .txFrame (actedFrame p s), wire := s.wire ++ [actedFrame p s],
      led := ledAfter s.cfg p s.t.toNat s.led, phase := nextPhase p, t := 0 } := by
  simp [iteration, submit, State.drive, State.withBank, h, State.appendWire, State.withLed, advance, hn, State.setPos,
    actedBank, actedFrame]

/-! ### Rows and TICK -/

theorem rowTick_selected {p : Phase} {s : State} (h : IsRunning s) (hp : s.phase = p) : rowTick p s = iteration p s := by
  simp [rowTick, (running_iff s).2 h, hp]

theorem rowTick_other {p : Phase} {s : State} (h : ¬ (IsRunning s ∧ s.phase = p)) : rowTick p s = s := by
  simp only [rowTick, running_iff]
  exact if_neg h

/-- The meaning of a row of the phase table. -/
theorem exec_row (p : Phase) (s : State) : exec p.instr s = .next (rowTick p s) := by
  cases p
  case done =>
    have h : rowTick .done s = s := rowTick_other (fun h => h.1.2.2 h.2)
    rw [h]
    rfl
  all_goals rfl

theorem runRow_eq (p : Phase) (s : State) : runRow p s = exec p.instr s := by
  cases p <;> rfl

theorem exec_tick_idle {s : State} (h : ¬ IsRunning s) (a : Answer) : exec (.tick a) s = .next s := by
  simp [exec, execTick, (running_false_iff s).2 h]

theorem exec_tick_running {s : State} (h : IsRunning s) (a : Answer) :
    exec (.tick a) s = .next (iteration s.phase (s.latchAnswer a)) := by
  have h' : IsRunning (s.latchAnswer a) := h
  have hr : exec (.tick a) s = exec s.phase.instr (s.latchAnswer a) := by
    rw [← runRow_eq]
    simp only [exec, execTick, (running_iff s).2 h, if_true]
  rw [hr, exec_row, rowTick_selected (p := s.phase) h' rfl]

/-! ### SET, GET, START -/

theorem exec_set_running {s : State} (h : IsRunning s) (i v : Int) :
    exec (.set i v) s = .refused .setWhileRunning := by
  simp [exec, execSet, (running_iff s).2 h]

theorem exec_set_idle {s : State} (h : ¬ IsRunning s) (i v : Int) :
    exec (.set i v) s = .next { s with ch := bankSet s.ch i v } := by
  simp [exec, execSet, (running_false_iff s).2 h, State.withBank]

theorem exec_get_mem (s : State) (k : Fin 16) :
    exec (.get (k.val : Int)) s = .next { s with out := .rdData (readChan s.ch k) } := by
  simp [exec, execGet, chanIndex_val, State.drive]

theorem exec_get_out (s : State) {i : Int} (h : i < 0 ∨ 15 < i) : exec (.get i) s = .refused (.getOutOfRange i) := by
  simp [exec, execGet, chanIndex_eq_none.2 h]

/-! ### Inversion: everything an operation and a step can do when they answer a next state -/

/-- What an operation can do. -/
theorem exec_next_cases {i : Instr} {s t : State} (h : exec i s = .next t) :
    (t = s) ∨
    (∃ j v, i = .set j v ∧ ¬ IsRunning s ∧ t = { s with ch := bankSet s.ch j v }) ∨
    ((i = .snapshot ∨ i = .encode ∨ ∃ k : Fin 16, i = .get (k.val : Int)) ∧ ∃ o, t = { s with out := o }) ∨
    (i = .start ∧ s.started = false ∧ t = { s with started := true }) ∨
    (i = .reset ∧ t = resetCore s) ∨
    (∃ a, i = .tick a ∧ IsRunning s ∧ t = iteration s.phase (s.latchAnswer a)) ∨
    (i = s.phase.instr ∧ IsRunning s ∧ t = iteration s.phase s) := by
  have row : ∀ p : Phase, exec p.instr s = .next t →
      t = s ∨ (p.instr = s.phase.instr ∧ IsRunning s ∧ t = iteration s.phase s) := by
    intro p hp
    rw [exec_row] at hp
    injection hp with hp
    by_cases hs : IsRunning s ∧ s.phase = p
    · right
      rw [rowTick_selected hs.1 hs.2] at hp
      obtain ⟨hr, rfl⟩ := hs
      exact ⟨rfl, hr, hp.symm⟩
    · left
      rw [rowTick_other hs] at hp
      exact hp.symm
  have rowGoal : ∀ p : Phase, exec p.instr s = .next t →
      (t = s) ∨
      (∃ j v, p.instr = .set j v ∧ ¬ IsRunning s ∧ t = { s with ch := bankSet s.ch j v }) ∨
      ((p.instr = .snapshot ∨ p.instr = .encode ∨ ∃ k : Fin 16, p.instr = .get (k.val : Int)) ∧
        ∃ o, t = { s with out := o }) ∨
      (p.instr = .start ∧ s.started = false ∧ t = { s with started := true }) ∨
      (p.instr = .reset ∧ t = resetCore s) ∨
      (∃ a, p.instr = .tick a ∧ IsRunning s ∧ t = iteration s.phase (s.latchAnswer a)) ∨
      (p.instr = s.phase.instr ∧ IsRunning s ∧ t = iteration s.phase s) := by
    intro p hp
    rcases row p hp with h | h
    · exact Or.inl h
    · exact Or.inr (Or.inr (Or.inr (Or.inr (Or.inr (Or.inr h)))))
  cases i with
  | nop => left; injection h with h; exact h.symm
  | set j v =>
    by_cases hr : IsRunning s
    · rw [exec_set_running hr] at h
      cases h
    · rw [exec_set_idle hr] at h
      injection h with h
      exact Or.inr (Or.inl ⟨j, v, rfl, hr, h.symm⟩)
  | get j =>
    cases hk : chanIndex j with
    | none =>
      rw [exec_get_out s (chanIndex_eq_none.1 hk)] at h
      cases h
    | some k =>
      obtain rfl := chanIndex_eq_some.1 hk
      rw [exec_get_mem] at h
      injection h with h
      exact Or.inr (Or.inr (Or.inl ⟨Or.inr (Or.inr ⟨k, rfl⟩), _, h.symm⟩))
  | snapshot =>
    injection h with h
    exact Or.inr (Or.inr (Or.inl ⟨Or.inl rfl, _, h.symm⟩))
  | encode =>
    injection h with h
    exact Or.inr (Or.inr (Or.inl ⟨Or.inr (Or.inl rfl), _, h.symm⟩))
  | start =>
    cases hs : s.started with
    | true =>
      simp [exec, execStart, hs] at h
    | false =>
      simp only [exec, execStart, hs, Bool.false_eq_true, if_false] at h
      injection h with h
      exact Or.inr (Or.inr (Or.inr (Or.inl ⟨rfl, rfl, h.symm⟩)))
  | tick a =>
    by_cases hr : IsRunning s
    · rw [exec_tick_running hr] at h
      injection h with h
      exact Or.inr (Or.inr (Or.inr (Or.inr (Or.inr (Or.inl ⟨a, rfl, hr, h.symm⟩)))))
    · rw [exec_tick_idle hr] at h
      injection h with h
      exact Or.inl h.symm
  | reset =>
    injection h with h
    exact Or.inr (Or.inr (Or.inr (Or.inr (Or.inl ⟨rfl, h.symm⟩))))
  | phaseNeutral => exact rowGoal .neutral h
  | phaseArming => exact rowGoal .arming h
  | phaseArmedHold => exact rowGoal .armedHold h
  | phaseThrottleRampUp => exact rowGoal .throttleRampUp h
  | phaseThrottleHold => exact rowGoal .throttleHold h
  | phaseThrottleRampDown => exact rowGoal .throttleRampDown h
  | phaseThrottleFloorHold => exact rowGoal .throttleFloorHold h
  | phaseDisarming => exact rowGoal .disarming h
  | phaseDisarmedHold => exact rowGoal .disarmedHold h
  | phaseDone => exact rowGoal .done h

/-- The operation of the next event. -/
theorem step_event {s : State} {w : CmdWord} {rest : List CmdWord} {i : Instr} (he : s.events = w :: rest)
    (hd : decodeCmd s.cfg w = .ok i) : step s = exec i { s with events := rest, out := .idle } := by
  simp [step, takeEvent, he, runEvent, hd]

/-- What a step can do: it waits, or it is the operation of the next event. -/
theorem step_next_cases {s t : State} (h : step s = .next t) :
    (s.events = [] ∧ t = s) ∨
    (∃ w rest i, s.events = w :: rest ∧ decodeCmd s.cfg w = .ok i ∧
      exec i { s with events := rest, out := .idle } = .next t) := by
  cases he : s.events with
  | nil =>
    simp only [step, takeEvent, he] at h
    injection h with h
    exact Or.inl ⟨rfl, h.symm⟩
  | cons w rest =>
    right
    cases hd : decodeCmd s.cfg w with
    | ok i => exact ⟨w, rest, i, rfl, hd, by rw [← step_event he hd]; exact h⟩
    | error e => simp [step, takeEvent, he, runEvent, hd] at h

end Sys2Proof.Machine
end

