-- ==== Sys2Proof/Laws/PerInstr.lean ====
section
/-! SUPPORT. Per instruction: the word the encoder writes belongs to the instruction's own row of spec/opcode_table.json
(match and mask, spec/30_encoding.md R70). -/

namespace Sys2Proof.Laws.EncodedWordOfRow

/-- The code word of `i` matches the row that bears `i`'s mnemonic. -/
def Statement (i : Instr) : Prop :=
  match encode i with
  | .cmd w => ∃ r ∈ cmdRows, r.mnemonic = i.mnemonic ∧ r.accepts w = true
  | .phase c => ∃ r ∈ phaseRows, r.mnemonic = i.mnemonic ∧ r.accepts c = true

theorem set_bits (x : BitVec 8) (y : BitVec 16) : cmdWord 0x1 0 x y &&& 0xFF000000 = 0x10000000 := by
  have hx := x.isLt
  have hy := y.isLt
  apply BitVec.eq_of_getLsbD_eq
  intro j hj
  rw [BitVec.getLsbD_and]
  simp only [BitVec.getLsbD, Nat.testBit_eq_decide_div_mod_eq]
  by_cases hm : j < 24
  · interval_cases j <;> simp
  · simp only [cmdWord_toNat]
    interval_cases j <;> simp <;> omega

theorem get_bits (x : BitVec 8) : cmdWord 0x2 0 x 0 &&& 0xFF00FFFF = 0x20000000 := by
  have hx := x.isLt
  apply BitVec.eq_of_getLsbD_eq
  intro j hj
  rw [BitVec.getLsbD_and]
  simp only [BitVec.getLsbD, Nat.testBit_eq_decide_div_mod_eq]
  by_cases hm : 16 ≤ j ∧ j < 24
  · obtain ⟨h1, h2⟩ := hm
    interval_cases j <;> simp
  · simp only [cmdWord_toNat]
    interval_cases j <;> simp <;> omega

theorem nop : Statement .nop := ⟨cmdRows[0], by decide, rfl, by decide⟩
theorem set (i v : Int) : Statement (.set i v) :=
  ⟨cmdRows[1], by decide, rfl, by
    rw [TableRow.accepts, beq_iff_eq]
    exact set_bits _ _⟩
theorem get (i : Int) : Statement (.get i) :=
  ⟨cmdRows[2], by decide, rfl, by
    rw [TableRow.accepts, beq_iff_eq]
    exact get_bits _⟩
theorem snapshot : Statement .snapshot := ⟨cmdRows[3], by decide, rfl, by decide⟩
theorem encode : Statement .encode := ⟨cmdRows[4], by decide, rfl, by decide⟩
theorem start : Statement .start := ⟨cmdRows[5], by decide, rfl, by decide⟩
theorem tick (a : Answer) : Statement (.tick a) := ⟨cmdRows[6], by decide, rfl, by cases a <;> decide⟩
theorem reset : Statement .reset := ⟨cmdRows[7], by decide, rfl, by decide⟩
theorem phaseNeutral : Statement .phaseNeutral := ⟨phaseRows[0], by decide, rfl, by decide⟩
theorem phaseArming : Statement .phaseArming := ⟨phaseRows[1], by decide, rfl, by decide⟩
theorem phaseArmedHold : Statement .phaseArmedHold := ⟨phaseRows[2], by decide, rfl, by decide⟩
theorem phaseThrottleRampUp : Statement .phaseThrottleRampUp := ⟨phaseRows[3], by decide, rfl, by decide⟩
theorem phaseThrottleHold : Statement .phaseThrottleHold := ⟨phaseRows[4], by decide, rfl, by decide⟩
theorem phaseThrottleRampDown : Statement .phaseThrottleRampDown := ⟨phaseRows[5], by decide, rfl, by decide⟩
theorem phaseThrottleFloorHold : Statement .phaseThrottleFloorHold := ⟨phaseRows[6], by decide, rfl, by decide⟩
theorem phaseDisarming : Statement .phaseDisarming := ⟨phaseRows[7], by decide, rfl, by decide⟩
theorem phaseDisarmedHold : Statement .phaseDisarmedHold := ⟨phaseRows[8], by decide, rfl, by decide⟩
theorem phaseDone : Statement .phaseDone := ⟨phaseRows[9], by decide, rfl, by decide⟩

end Sys2Proof.Laws.EncodedWordOfRow
end

