-- ==== Sys2Proof/Laws/Rows.lean ====
section
/-! SUPPORT. The rows of the phase table: what an iteration through each writes into the bank, the three ways an iteration
ends, and the bounds of the durations. -/

namespace Sys2Proof.Machine

/-- The three ways one iteration of the send loop ends (42_sequencer R103, R104, 60_exceptions R143). -/
theorem iteration_cases (p : Phase) (s : State) :
    (s.txFail = true ∧
      iteration p s = { s with ch := actedBank p s, out := .txFrame (actedFrame p s), fault := true }) ∨
    (s.txFail = false ∧ s.t.toNat + 1 < phaseDur s.cfg p ∧ iteration p s = { s with
      ch := actedBank p s, out := .txFrame (actedFrame p s), wire := s.wire ++ [actedFrame p s],
      led := ledAfter s.cfg p s.t.toNat s.led, phase := p, t := BitVec.ofNat 11 (s.t.toNat + 1) }) ∨
    (s.txFail = false ∧ ¬ s.t.toNat + 1 < phaseDur s.cfg p ∧ iteration p s = { s with
      ch := actedBank p s, out := .txFrame (actedFrame p s), wire := s.wire ++ [actedFrame p s],
      led := ledAfter s.cfg p s.t.toNat s.led, phase := nextPhase p, t := 0 }) := by
  rcases Bool.eq_false_or_eq_true s.txFail with h | h
  · exact .inl ⟨h, iteration_fail p s h⟩
  · by_cases hn : s.t.toNat + 1 < phaseDur s.cfg p
    · exact .inr (.inl ⟨h, hn, iteration_ok_stay p s h hn⟩)
    · exact .inr (.inr ⟨h, hn, iteration_ok_last p s h hn⟩)

/-- The durations of a legal configuration fit the 11 bits of `t` (10_state R26: its largest value is 1229). -/
theorem phaseDur_bounds {c : Config} (h : c.Legal) {p : Phase} (hp : p ≠ .done) :
    0 < phaseDur c p ∧ phaseDur c p ≤ 1230 := by
  obtain ⟨-, h1, h2, -⟩ := h
  cases p <;> simp_all [phaseDur] <;> omega

theorem nextPhase_code {p : Phase} (hp : p ≠ .done) : (nextPhase p).code = p.code + 1 := by
  cases p <;> simp_all [nextPhase, Phase.code]

theorem nextPhase_ne {p : Phase} (hp : p ≠ .done) : nextPhase p ≠ p := by
  cases p <;> simp_all [nextPhase]

section actedBank
variable (s : State) (k : Fin 16)

theorem chan_actedBank_neutral : chan (actedBank .neutral s) k =
    if k = s.cfg.aux2 then 172 else if k = s.cfg.aux1 then 172 else if k = s.cfg.yaw then 992
    else if k = s.cfg.throttle then 172 else if k = s.cfg.pitch then 992 else if k = s.cfg.roll then 992
    else chan s.ch k := by
  simp [actedBank, phaseWrites, bankSetAll_cons, chan_bankSet_val, clampRaw_eq]

theorem chan_actedBank_arming : chan (actedBank .arming s) k =
    if k = s.cfg.yaw then 1811 else if k = s.cfg.throttle then 172 else chan s.ch k := by
  simp [actedBank, phaseWrites, bankSetAll_cons, chan_bankSet_val, clampRaw_eq]

theorem chan_actedBank_armedHold : chan (actedBank .armedHold s) k =
    if k = s.cfg.yaw then 992 else chan s.ch k := by
  simp [actedBank, phaseWrites, bankSetAll_cons, chan_bankSet_val, clampRaw_eq]

theorem chan_actedBank_throttleRampUp (h : s.t.toNat < 1640) : chan (actedBank .throttleRampUp s) k =
    if k = s.cfg.throttle then 172 + 5 * ((s.t.toNat / 5 : Nat) : Int) else chan s.ch k := by
  have hc : clampRaw (rampUpValue s.t.toNat) = 172 + 5 * ((s.t.toNat / 5 : Nat) : Int) := by
    simp only [rampUpValue, chMin, rampStep, rampHold]
    exact clampRaw_of_mem (by omega) (by omega)
  simp only [actedBank, phaseWrites, bankSetAll_cons, bankSetAll_nil, chan_bankSet_val, hc]

theorem chan_actedBank_throttleHold : chan (actedBank .throttleHold s) k =
    if k = s.cfg.throttle then 1400 else chan s.ch k := by
  simp [actedBank, phaseWrites, bankSetAll_cons, chan_bankSet_val, clampRaw_eq]

theorem chan_actedBank_throttleRampDown (h : s.t.toNat < 1230) : chan (actedBank .throttleRampDown s) k =
    if k = s.cfg.throttle then 1400 - 5 * ((s.t.toNat / 5 : Nat) : Int) else chan s.ch k := by
  have hc : clampRaw (rampDownValue s.t.toNat) = 1400 - 5 * ((s.t.toNat / 5 : Nat) : Int) := by
    simp only [rampDownValue, thrTop, rampStep, rampHold]
    exact clampRaw_of_mem (by omega) (by omega)
  simp only [actedBank, phaseWrites, bankSetAll_cons, bankSetAll_nil, chan_bankSet_val, hc]

theorem chan_actedBank_throttleFloorHold : chan (actedBank .throttleFloorHold s) k =
    if k = s.cfg.throttle then 172 else chan s.ch k := by
  simp [actedBank, phaseWrites, bankSetAll_cons, chan_bankSet_val, clampRaw_eq]

theorem chan_actedBank_disarming : chan (actedBank .disarming s) k =
    if k = s.cfg.yaw then 172 else if k = s.cfg.throttle then 172 else chan s.ch k := by
  simp [actedBank, phaseWrites, bankSetAll_cons, chan_bankSet_val, clampRaw_eq]

theorem chan_actedBank_disarmedHold : chan (actedBank .disarmedHold s) k =
    if k = s.cfg.yaw then 992 else chan s.ch k := by
  simp [actedBank, phaseWrites, bankSetAll_cons, chan_bankSet_val, clampRaw_eq]

/-- A row writes role channels only (10_state R24). -/
theorem chan_actedBank_of_not_role (p : Phase) (h : k ∉ s.cfg.roles) : chan (actedBank p s) k = chan s.ch k := by
  apply chan_bankSetAll_of_not_mem
  simp only [Config.roles, List.mem_cons, List.not_mem_nil, or_false, not_or] at h
  cases p <;> simp [phaseWrites, h]

end actedBank

theorem phaseOfCode_code (p : Phase) : phaseOfCode p.code = some p := by
  cases p <;> rfl

/-- A PHASE code placed by `withFetchWord` is performed by the very next step: that step is the row's own meaning, in the
state the placing prepared, with the TICK event taken and answered ok. -/
theorem step_withFetchWord_phase (s : State) {p : Phase} (hp : p ≠ .done) :
    step (s.withFetchWord 8 p.code.toNat) =
      exec p.instr { s with started := true, fault := false, phase := p, t := 0, out := .idle, txFail := false } := by
  have hw : s.withFetchWord 8 p.code.toNat =
      { s with started := true, fault := false, phase := p, t := 0, events := cmdWord 0x6 0 0 0 :: s.events } := by
    simp [State.withFetchWord, placeTableWord, phaseOfCode_code]
  have hrow (u : State) (hr : IsRunning u) (hu : u.phase = p) : exec p.instr u = .next (iteration p u) := by
    rw [exec_row, rowTick_selected hr hu]
  rw [hw, step_event rfl (decodeCmd_tick_ok _), exec_tick_running ⟨rfl, rfl, hp⟩, hrow _ ⟨rfl, rfl, hp⟩ rfl]
  rfl

theorem bankInRange_actedBank (p : Phase) {s : State} (h : BankInRange s.ch) : BankInRange (actedBank p s) :=
  bankInRange_bankSetAll _ h

end Sys2Proof.Machine
end

