-- ==== Sys2Proof/Machine/Pseudo.lean ====
section
/-! DEFINITION. The pseudo-operations of spec/30_encoding.md R72: "Each expands to the operations shown and has no encoding
of its own." -/

namespace Sys2Proof.Machine

/-- `TICKS n`: `TICK` repeated `n` times, every answer ok. -/
def pseudoTicks (n : Nat) : List Instr := List.replicate n (.tick .ok)

/-- `RUN`: `START`, then `TICKS 3250`. -/
def pseudoRun : List Instr := .start :: pseudoTicks 3250

/-- `FILL v`: `SET 0, v`; `SET 1, v`; ...; `SET 15, v`. -/
def pseudoFill (v : Int) : List Instr := (List.range 16).map fun k => .set (k : Int) v

/-- `CENTER i`: `SET i, 992`. -/
def pseudoCenter (i : Int) : List Instr := [.set i chMid]

/-- The event words of a list of CMD operations, presented in order; a PHASE row has no event word. -/
def eventWords (l : List Instr) : List CmdWord :=
  l.filterMap fun i =>
    match encode i with
    | .cmd w => some w
    | .phase _ => none

end Sys2Proof.Machine
end

