-- ==== Sys2Proof/Tests/Slice0.lean ====
section
/-! SUPPORT. Tests: the smoke tests of WellFormed, decoding by words written out from spec/30_encoding.md R66, one-step tests
whose expected results are the vectors of spec/95_test_vectors.md, and a witness for the hypotheses of every statement. -/

namespace Sys2Proof.Tests

open Sys2Proof.Machine

/-! ### States and readings -/

/-- A field of the next state, if there is one. -/
def field {α : Type} (r : Result) (f : State → α) : Option α :=
  match r with
  | .next t => some (f t)
  | .fault _ => none
  | .refused _ => none

/-- The reason of a refusal, if there is one. -/
def reason (r : Result) : Option Refusal :=
  match r with
  | .next _ => none
  | .fault _ => none
  | .refused q => some q

/-- A bank from sixteen numbers. -/
def bankOf (l : List Nat) : Bank := Vector.ofFn fun k => BitVec.ofNat 11 (l.getD k.val 992)

/-- The bank of the Neutral phase (95_test_vectors T1). -/
def neutralBank : Bank := bankOf [992, 992, 172, 992, 172, 172]

/-- A running core at a position, with a bank. -/
def runningAt (b : Bank) (p : Phase) (n : Nat) : State :=
  { State.reset with ch := b, started := true, phase := p, t := BitVec.ofNat 11 n }

/-- A state with one pending event. -/
def withEvent (s : State) (w : CmdWord) : State := { s with events := [w] }

/-- The state of 95_test_vectors T4, `k = 366`, after the failing tick. -/
def aborted : State :=
  { runningAt (bankOf [992, 992, 177, 992, 172, 172]) .throttleRampUp 6 with fault := true }

/-- A finished run. -/
def finished : State := runningAt neutralBank .done 0

/-- The Neutral frame (95_test_vectors T1). -/
def neutralFrame : Frame :=
  #v[0x0F, 0xE0, 0x03, 0x1F, 0x2B, 0xC0, 0xC7, 0x0A, 0x56, 0x80, 0x0F, 0x7C, 0xE0, 0x03, 0x1F, 0xF8, 0xC0, 0x07, 0x3E,
    0xF0, 0x81, 0x0F, 0x7C, 0x00, 0x00]

/-- The frame of throttle 177 (95_test_vectors 2.3). -/
def frame177 : Frame :=
  #v[0x0F, 0xE0, 0x03, 0x5F, 0x2C, 0xC0, 0xC7, 0x0A, 0x56, 0x80, 0x0F, 0x7C, 0xE0, 0x03, 0x1F, 0xF8, 0xC0, 0x07, 0x3E,
    0xF0, 0x81, 0x0F, 0x7C, 0x00, 0x00]

/-- Another legal configuration: the six roles in other places, shorter ramps. -/
def otherConfig : Config :=
  { Config.default with roll := 15, pitch := 14, throttle := 0, yaw := 7, aux1 := 1, aux2 := 8, rampN := 1 }

/-- A legal machine with narrower operands (00_scope R8). -/
def narrow : Config := { Config.default with idxW := 4, rawW := 12 }

/-! ### WellFormed: an ill-formed term for each check -/

theorem test_wf_refuses_set_index : wellFormed Config.default (.set 128 1000) = false := by decide
theorem test_wf_refuses_set_raw : wellFormed Config.default (.set 0 (-32769)) = false := by decide
theorem test_wf_refuses_get_index : wellFormed Config.default (.get (-129)) = false := by decide
theorem test_wf_accepts_edges :
    wellFormed Config.default (.set (-128) 32767) = true ∧ wellFormed Config.default (.get 127) = true := by decide
theorem test_wf_narrow_widths : wellFormed narrow (.set (-8) 2047) = true ∧ wellFormed narrow (.set 8 0) = false ∧
    wellFormed narrow (.set 0 2048) = false := by decide
theorem test_config_refuses_wide_operands :
    ¬ { Config.default with idxW := 9 }.Legal ∧ ¬ { Config.default with rawW := 0 }.Legal := by decide
theorem test_config_legal : Config.default.Legal ∧ otherConfig.Legal ∧ narrow.Legal := by decide
theorem test_config_refuses_equal_roles : ¬ { Config.default with yaw := 2 }.Legal := by decide
theorem test_config_refuses_long_ramp : ¬ { Config.default with rampN := 247 }.Legal := by decide

/-! ### Decoding: every constructor, its word written bit by bit (30_encoding R66, 10_state R25) -/

theorem test_decode_nop : decodeCmd Config.default 0b00000000000000000000000000000000 = .ok .nop := by decide
theorem test_decode_set : decodeCmd Config.default 0b00010000111111110000001111101000 = .ok (.set (-1) 1000) := by decide
theorem test_decode_get : decodeCmd Config.default 0b00100000000011100000000000000000 = .ok (.get 14) := by decide
theorem test_decode_snapshot : decodeCmd Config.default 0b00110000000000000000000000000000 = .ok .snapshot := by decide
theorem test_decode_encode : decodeCmd Config.default 0b01000000000000000000000000000000 = .ok .encode := by decide
theorem test_decode_start : decodeCmd Config.default 0b01010000000000000000000000000000 = .ok .start := by decide
theorem test_decode_tick : decodeCmd Config.default 0b01100000000000000000000000000001 = .ok (.tick .fail) := by decide
theorem test_decode_reset : decodeCmd Config.default 0b11110000000000000000000000000000 = .ok .reset := by decide
theorem test_decode_phaseNeutral : decodePhase 0b0000 = .ok .phaseNeutral := by decide
theorem test_decode_phaseArming : decodePhase 0b0001 = .ok .phaseArming := by decide
theorem test_decode_phaseArmedHold : decodePhase 0b0010 = .ok .phaseArmedHold := by decide
theorem test_decode_phaseThrottleRampUp : decodePhase 0b0011 = .ok .phaseThrottleRampUp := by decide
theorem test_decode_phaseThrottleHold : decodePhase 0b0100 = .ok .phaseThrottleHold := by decide
theorem test_decode_phaseThrottleRampDown : decodePhase 0b0101 = .ok .phaseThrottleRampDown := by decide
theorem test_decode_phaseThrottleFloorHold : decodePhase 0b0110 = .ok .phaseThrottleFloorHold := by decide
theorem test_decode_phaseDisarming : decodePhase 0b0111 = .ok .phaseDisarming := by decide
theorem test_decode_phaseDisarmedHold : decodePhase 0b1000 = .ok .phaseDisarmedHold := by decide
theorem test_decode_phaseDone : decodePhase 0b1001 = .ok .phaseDone := by decide
theorem test_decode_rejects_by_name :
    decodeCmd Config.default 0x70000000 = .error (.reservedOp 7) ∧ decodeCmd Config.default 0x01000000 = .error .zNotZero ∧
    decodeCmd Config.default 0x50010000 = .error .idxNotZero ∧ decodeCmd Config.default 0x60000002 = .error .datNotZero ∧
    decodePhase 10 = .error (.reservedPhase 10) := by decide
theorem test_decode_narrow : decodeCmd narrow 0x100707FF = .ok (.set 7 2047) ∧
    decodeCmd narrow 0x20080000 = .error .operandTooWide ∧ decodeCmd narrow 0x20F80000 = .ok (.get (-8)) := by decide
theorem test_table_word : decodeTableWord 32 0x60000000 = some (.tick .ok) ∧
    decodeTableWord 8 0x3 = some .phaseThrottleRampUp ∧ decodeTableWord 8 0xA = none := by decide

/-! ### The codec: 95_test_vectors V1, V12, V13 -/

theorem test_encode_V1 : encodeFrame (Vector.replicate 16 992) =
    #v[0x0F, 0xE0, 0x03, 0x1F, 0xF8, 0xC0, 0x07, 0x3E, 0xF0, 0x81, 0x0F, 0x7C, 0xE0, 0x03, 0x1F, 0xF8, 0xC0, 0x07, 0x3E,
      0xF0, 0x81, 0x0F, 0x7C, 0x00, 0x00] := by decide
theorem test_encode_V12 : encodeFrame (Vector.ofFn fun k => 172 + 100 * (k.val : Int)) =
    #v[0x0F, 0xAC, 0x80, 0x08, 0x5D, 0xB0, 0xC3, 0x23, 0x50, 0x11, 0x0C, 0x6D, 0xCC, 0x83, 0x21, 0x25, 0xF1, 0xC9, 0x55,
      0xE0, 0x92, 0x18, 0xD1, 0x00, 0x00] := by decide
theorem test_encode_V13 :
    encodeFrame #v[2048, 5000, -1, 4095, -2048, 4095, 1048576, -5, 0, 0, 0, 0, 0, 0, 0, 0] =
    #v[0x0F, 0x00, 0x40, 0xDC, 0xFF, 0xFF, 0x0F, 0x80, 0xFF, 0x03, 0x60, 0xFF, 0x00, 0x00, 0x00, 0x00, 0x00, 0x00, 0x00,
      0x00, 0x00, 0x00, 0x00, 0x00, 0x00] := by decide

/-! ### ChannelBank: 95_test_vectors S1, S2, P1, P3 -/

theorem test_nop : exec .nop aborted = .next aborted := rfl
theorem test_set_clamps_high : field (exec (.set 1 5000) State.reset) (chan ·.ch 1) = some 1811 := by decide
theorem test_set_clamps_negative : field (exec (.set 3 (-7)) State.reset) (chan ·.ch 3) = some 172 := by decide
theorem test_set_ignores_index_16 : field (exec (.set 16 1000) State.reset) (·.ch) = some State.reset.ch := by decide
theorem test_set_refused_while_running :
    reason (step (withEvent (runningAt neutralBank .neutral 0) 0x100700C8)) = some .setWhileRunning ∧
    (hardwareStep (withEvent (runningAt neutralBank .neutral 0) 0x100700C8)).1.ch = neutralBank := by decide
theorem test_get_reads : field (exec (.get 7) State.reset) State.rdData = some (some 992) := by decide
theorem test_get_refuses_16 : reason (exec (.get 16) State.reset) = some (.getOutOfRange 16) := by decide
theorem test_snapshot : field (exec .snapshot aborted) (·.out) = some (.snap aborted.ch) := by decide
theorem test_encode_op : field (exec .encode (runningAt neutralBank .arming 3)) (·.out) =
    some (.encFrame neutralFrame) := by decide

/-! ### START, RESET and the pins -/

theorem test_start : field (exec .start State.reset) (fun t => (t.started, t.wire)) = some (true, []) := by decide
theorem test_start_refused_after_fault : reason (exec .start aborted) = some .alreadyStarted := by decide
theorem test_reset_of_aborted : exec .reset aborted = .next State.reset := rfl
theorem test_reset_wins : (State.reset.present ⟨true, true, false, true, 0x10000032⟩).events = [0xF0000000] := by decide
theorem test_tick_before_command :
    (State.reset.present ⟨false, true, true, true, 0x10000032⟩).events = [0x60000001, 0x10000032] := by decide

/-- P5, steps 6 and 7 by the hardware's rule: START is dropped with a mark, SET 2, 172 is admitted. -/
theorem test_hardware_rule_P5 :
    (hardwareRun 2 { aborted with events := [0x50000000, 0x100200AC] }).2 = [.alreadyStarted] ∧
    (hardwareRun 2 { aborted with events := [0x50000000, 0x100200AC] }).1.ch = neutralBank := by decide
theorem test_pseudo_fill : (eventWords (pseudoFill 992)).take 3 = [0x100003E0, 0x100103E0, 0x100203E0] := by decide

/-! ### TICK: 95_test_vectors T2, T4, T5 -/

theorem test_tick_idle : exec (.tick .fail) State.reset = .next State.reset := rfl
/-- T2, `k = 1`. -/
theorem test_tick_first : field (exec (.tick .ok) (runningAt State.reset.ch .neutral 0))
    (fun t => (t.ch, t.wire, t.phase, t.t, t.led)) = some (neutralBank, [neutralFrame], .neutral, 1, true) := by decide
/-- T2, `k = 365` to `k = 366`. -/
theorem test_tick_ramp_up : field (exec (.tick .ok) (runningAt neutralBank .throttleRampUp 5))
    (fun t => (chan t.ch 2, t.wire, t.t)) = some (177, [frame177], 6) := by decide
/-- T2, `k = 2959` to `k = 2960`: the last tick of the ramp down leaves 175, not 172. -/
theorem test_tick_ramp_down_end : field (exec (.tick .ok) (runningAt neutralBank .throttleRampDown 1229))
    (fun t => (chan t.ch 2, t.phase, t.t)) = some (175, .throttleFloorHold, 0) := by decide
/-- T2, `k = 1590` to `k = 1591`. -/
theorem test_tick_hold : field (exec (.tick .ok) (runningAt neutralBank .throttleHold 0))
    (fun t => (chan t.ch 2, t.led)) = some (1400, true) := by decide
/-- T2, `k = 140` to `k = 141`, with the roles in other places. -/
theorem test_tick_arming_other_roles :
    field (exec (.tick .ok) { runningAt neutralBank .arming 0 with cfg := otherConfig })
      (fun t => (chan t.ch 7, chan t.ch 3)) = some (1811, 992) := by decide
/-- T4, `k = 366`. -/
theorem test_tick_fail : field (exec (.tick .fail) (runningAt neutralBank .throttleRampUp 6))
    (fun t => (chan t.ch 2, t.fault, t.wire, t.phase, t.t)) = some (177, true, [], .throttleRampUp, 6) := by decide
/-- T2, `k = 3249` to `k = 3250`. -/
theorem test_tick_last : field (exec (.tick .ok) (runningAt neutralBank .disarmedHold 69))
    (fun t => (t.phase, t.t, t.running)) = some (.done, 0, false) := by decide

/-! ### The rows of the phase table, each through `withFetchWord` and one step (T1, T2) -/

/-- Throttle, yaw, frames sent, phase and `t` after one step from `State.reset` with a PHASE code placed. -/
def rowFromReset (c : Nat) : Option (Int × Int × Nat × Phase × BitVec 11) :=
  field (step (State.reset.withFetchWord 8 c)) fun t => (chan t.ch 2, chan t.ch 3, t.framesSent, t.phase, t.t)

theorem test_row_neutral : rowFromReset 0 = some (172, 992, 1, .neutral, 1) := by decide
theorem test_row_arming : rowFromReset 1 = some (172, 1811, 1, .arming, 1) := by decide
theorem test_row_armedHold : rowFromReset 2 = some (992, 992, 1, .armedHold, 1) := by decide
theorem test_row_throttleRampUp : rowFromReset 3 = some (172, 992, 1, .throttleRampUp, 1) := by decide
theorem test_row_throttleHold : rowFromReset 4 = some (1400, 992, 1, .throttleHold, 1) := by decide
theorem test_row_throttleRampDown : rowFromReset 5 = some (1400, 992, 1, .throttleRampDown, 1) := by decide
theorem test_row_throttleFloorHold : rowFromReset 6 = some (172, 992, 1, .throttleFloorHold, 1) := by decide
theorem test_row_disarming : rowFromReset 7 = some (172, 172, 1, .disarming, 1) := by decide
theorem test_row_disarmedHold : rowFromReset 8 = some (992, 992, 1, .disarmedHold, 1) := by decide
theorem test_row_done : rowFromReset 9 = some (992, 992, 0, .done, 0) := by decide

/-! ### Witnesses: the hypotheses of each statement are met, clause by clause at the edges -/

theorem witness_widths_of_the_fields :
    Config.default.idxW = 8 ∧ Config.default.rawW = 16 ∧ narrow.idxW ≤ 8 ∧ narrow.rawW ≤ 16 ∧
    wellFormed narrow (.set (-8) (-2048)) = true := by decide
theorem witness_DecodeOfEncodeIsTheInstruction :
    Config.default.idxW ≤ 8 ∧ Config.default.rawW ≤ 16 ∧
    wellFormed Config.default (.set (-128) (-32768)) = true ∧ wellFormed Config.default (.get 127) = true ∧
    wellFormed Config.default (.tick .fail) = true := by decide
theorem witness_EncodeOfDecodeIsTheWord :
    decode Config.default (.cmd 0x10808000) = .ok (.set (-128) (-32768)) ∧
    decode Config.default (.phase 9) = .ok .phaseDone := by decide
theorem witness_IllegalWordsAreRefusedAndChangeNothing :
    IllegalCmd 0x70000000 ∧ (withEvent State.reset 0x70000000).events = 0x70000000 :: [] := by decide +kernel
theorem witness_IllegalWords_each_clause : IllegalCmd 0xE0000000 ∧ IllegalCmd 0x11000000 ∧ IllegalCmd 0xF0010000 := by
  decide +kernel
theorem witness_IllegalWords_data : IllegalCmd 0x20000001 ∧ IllegalCmd 0x60000002 := by decide +kernel
theorem witness_IllegalWords_legal_edges : ¬ IllegalCmd 0x60000001 ∧ ¬ IllegalCmd 0x10FFFFFF := by decide +kernel
theorem witness_DecoderIsTheOpcodeTable :
    decodeCmd Config.default 0x10FFFFFF = .ok (.set (-1) (-1)) ∧ (cmdRows.filter (·.accepts 0x20FF0000)).length = 1 ∧
    (phaseRows.filter (·.accepts 9)).length = 1 ∧ (phaseRows.filter (·.accepts 10)).length = 0 := by decide
theorem witness_StepRunsTheDecodedEvent :
    (withEvent aborted 0x100200AC).events = 0x100200AC :: [] ∧
    decodeCmd (withEvent aborted 0x100200AC).cfg 0x100200AC = .ok (.set 2 172) := by decide
theorem witness_StepWithoutEventWaits : aborted.events = [] := by decide
theorem witness_PresentedTogetherResetThenTickThenCommand :
    (⟨true, true, true, true, 0⟩ : Pins).rst = true ∧ (⟨false, true, false, true, 0⟩ : Pins).words.length = 2 ∧
    (⟨false, true, true, false, 0⟩ : Pins).words.length = 1 ∧ (⟨false, false, true, true, 0⟩ : Pins).words.length = 1 ∧
    (⟨false, false, true, false, 0⟩ : Pins).words.length = 0 := by decide
theorem witness_SetIsAClampedWrite :
    IsRunning (runningAt neutralBank .disarmedHold 69) ∧ ¬ IsRunning State.reset ∧ ¬ IsRunning finished ∧
    ¬ IsRunning aborted := by decide
theorem witness_SetsCommuteAndTheLastWriteWins : ¬ IsRunning aborted ∧ (0 : Int) ≠ 15 := by decide
theorem witness_HostSetWhileRunningIsDroppedAndRefused :
    IsRunning (withEvent (runningAt neutralBank .neutral 0) 0x100F0713) ∧
    decodeCmd (withEvent finished 0x100F0713).cfg 0x100F0713 = .ok (.set 15 1811) ∧
    (withEvent State.reset 0x100F0713).started = false ∧
    (withEvent finished 0x100F0713).phase = .done ∧ (withEvent aborted 0x100F0713).fault = true := by decide
theorem witness_GetReadsOneRegister :
    (15 : Int) = ((15 : Fin 16).val : Int) ∧ BankInRange aborted.ch ∧ ¬ IsRunning aborted ∧ (16 : Int) > 15 := by decide
theorem witness_SnapshotReadsAllRegisters : BankInRange (bankOf [172, 1811]) := by decide
theorem witness_EncodeShowsTheFrameOfTheBank :
    BankInRange (bankOf [172, 1811]) ∧ IsRunning (runningAt neutralBank .arming 149) := by decide
theorem witness_ReadsHaveNoSideEffects :
    IsRunning (runningAt neutralBank .arming 149) ∧ (runningAt neutralBank .arming 149).cfg.Legal ∧
    PositionLegal (runningAt neutralBank .arming 149) := by decide
theorem witness_ReadsHaveNoSideEffects_get_and_set :
    (∃ t, exec (.get 15) aborted = .next t) ∧ ∃ t, exec (.set 16 0) aborted = .next t := ⟨⟨_, rfl⟩, ⟨_, rfl⟩⟩
theorem witness_EncodeIsTheByteTable :
    ∀ k : Fin 16, (((Vector.replicate 16 (1811#11))[k]).toNat : Int) =
      (Vector.replicate 16 (1811 : Int))[k] % 2048 := by decide
theorem witness_FrameShapeAndMaskedValuesOnly :
    ∀ k : Fin 16, (Vector.replicate 16 (-1 : Int))[k] % 2048 = (Vector.replicate 16 (2047 : Int))[k] % 2048 := by decide
theorem witness_UnpackOfEncodeIsTheMaskedSnapshot :
    ∀ k : Fin 16, 0 ≤ (Vector.replicate 16 (2047 : Int))[k] ∧ (Vector.replicate 16 (2047 : Int))[k] ≤ 2047 := by decide
theorem witness_ChangingOneInputChangesOnlyItsField :
    (encodeFrame ((Vector.replicate 16 0).set 15 1024))[22].getLsbD 7 ≠
      (encodeFrame (Vector.replicate 16 0))[22].getLsbD 7 := by decide
theorem witness_EqualInputsGiveAPeriodicPayload :
    ∀ k : Fin 16, (Vector.replicate 16 (1811 : Int))[k] % 2048 = 1811 := by decide
theorem witness_StartBeginsTheOneRun :
    State.reset.started = false ∧ RunStateLegal State.reset ∧ aborted.started = true ∧
    (withEvent aborted 0x50000000).events = 0x50000000 :: [] := by decide
theorem witness_TickOfAnIdleCoreHasNoEffect :
    State.reset.started = false ∧ aborted.fault = true ∧ finished.phase = .done := by decide
theorem witness_TickPerformsTheSelectedRow :
    IsRunning (runningAt neutralBank .throttleRampUp 0) ∧ ¬ IsRunning State.reset ∧
    (runningAt neutralBank .throttleRampUp 0).phase ≠ .arming := by decide
theorem witness_TickIsOneIterationOfTheSendLoop :
    IsRunning (runningAt neutralBank .neutral 139) ∧ IsRunning (runningAt neutralBank .neutral 138) := by decide

/-- The hypotheses of `PhaseRowActs` at the last tick of a phase, for either answer of the transport. -/
abbrev RowHyps (s : State) (p : Phase) : Prop := s.cfg.Legal ∧ PositionLegal s ∧ IsRunning s ∧ s.phase = p

/-- The hypotheses of `PhaseRowSubmits`. -/
abbrev SubmitHyps (s : State) (p : Phase) (before : List (Fin 16 × Int)) : Prop :=
  RowHyps s p ∧ s.cfg.roles = [0, 1, 2, 3, 4, 5] ∧ ∀ kv ∈ before, chan s.ch kv.1 = kv.2

theorem witness_NeutralRowActs :
    SubmitHyps (runningAt neutralBank .neutral 139) .neutral restCentered ∧
    RowHyps { runningAt neutralBank .neutral 139 with cfg := otherConfig, txFail := true } .neutral := by decide
theorem witness_ArmingRowActs :
    SubmitHyps (runningAt neutralBank .arming 149) .arming
      ([(0, 992), (1, 992), (4, 172), (5, 172)] ++ restCentered) ∧
    RowHyps { runningAt neutralBank .arming 149 with txFail := true } .arming := by decide
theorem witness_ArmedHoldRowActs :
    SubmitHyps (runningAt neutralBank .armedHold 69) .armedHold
      ([(0, 992), (1, 992), (2, 172), (4, 172), (5, 172)] ++ restCentered) ∧
    RowHyps { runningAt neutralBank .armedHold 69 with txFail := true } .armedHold := by decide
theorem witness_ThrottleRampUpRowActs :
    RowHyps (runningAt neutralBank .throttleRampUp 1229) .throttleRampUp ∧
    RowHyps { runningAt neutralBank .throttleRampUp 4 with cfg := otherConfig, txFail := true } .throttleRampUp ∧
    Config.default.rampN = 246 := by decide
theorem witness_ThrottleHoldRowActs :
    SubmitHyps (runningAt neutralBank .throttleHold 139) .throttleHold
      ([(0, 992), (1, 992), (3, 992), (4, 172), (5, 172)] ++ restCentered) ∧
    RowHyps { runningAt neutralBank .throttleHold 139 with txFail := true } .throttleHold := by decide
theorem witness_ThrottleRampDownRowActs :
    RowHyps (runningAt neutralBank .throttleRampDown 1229) .throttleRampDown ∧
    RowHyps { runningAt neutralBank .throttleRampDown 4 with cfg := otherConfig, txFail := true } .throttleRampDown ∧
    Config.default.rampN = 246 := by decide
theorem witness_ThrottleFloorHoldRowActs :
    SubmitHyps (runningAt neutralBank .throttleFloorHold 69) .throttleFloorHold
      ([(0, 992), (1, 992), (3, 992), (4, 172), (5, 172)] ++ restCentered) ∧
    RowHyps { runningAt neutralBank .throttleFloorHold 69 with txFail := true } .throttleFloorHold := by decide
theorem witness_DisarmingRowActs :
    SubmitHyps (runningAt neutralBank .disarming 149) .disarming
      ([(0, 992), (1, 992), (4, 172), (5, 172)] ++ restCentered) ∧
    RowHyps { runningAt neutralBank .disarming 149 with txFail := true } .disarming := by decide
theorem witness_DisarmedHoldRowActs :
    SubmitHyps (runningAt neutralBank .disarmedHold 69) .disarmedHold
      ([(0, 992), (1, 992), (2, 172), (4, 172), (5, 172)] ++ restCentered) ∧
    RowHyps { runningAt neutralBank .disarmedHold 69 with txFail := true } .disarmedHold := by decide
theorem witness_DoneIsTerminal : finished.phase = .done ∧ finished.t = 0 := by decide

theorem witness_PositionMovesOnlyForward :
    (runningAt neutralBank .throttleRampUp 1229).cfg.Legal ∧ PositionLegal (runningAt neutralBank .throttleRampUp 1229) ∧
    IsRunning (runningAt neutralBank .throttleRampUp 1229) ∧ Instr.tick .ok ≠ .reset := by decide
theorem witness_PositionMovesOnlyForward_next :
    ∃ t, exec (.tick .ok) (runningAt neutralBank .throttleRampUp 1229) = .next t := ⟨_, rfl⟩
theorem witness_NothingButTicksMovesTheSequencer :
    field (exec (.tick .fail) (runningAt neutralBank .arming 0)) (fun t => decide (IsRunning t)) = some false ∧
    field (exec (.tick .ok) (runningAt neutralBank .disarmedHold 69)) (fun t => decide (IsRunning t)) = some false ∧
    field (exec .reset (runningAt neutralBank .arming 1)) (fun t => decide (IsRunning t)) = some false := by decide
theorem witness_TickWritesRoleChannelsOnly :
    (6 : Fin 16) ∉ Config.default.roles ∧ (15 : Fin 16) ∉ Config.default.roles ∧ ¬ IsRunning finished ∧
    field (exec (.tick .ok) (runningAt (bankOf []) .neutral 0)) (fun t => decide (t.ch = bankOf [])) = some false ∧
    field (exec .phaseArming (runningAt (bankOf []) .arming 0)) (fun t => decide (t.ch = bankOf [])) = some false := by
  decide
theorem witness_RunningBankIsOwnedByTheSequencer :
    IsRunning (runningAt (bankOf []) .neutral 0) ∧
    field (exec .phaseNeutral (runningAt (bankOf []) .neutral 0)) (fun t => decide (t.ch = bankOf [])) = some false ∧
    State.reset.started = false ∧ finished.phase = .done ∧ aborted.fault = true := by decide
theorem witness_OnlyResetClearsStartedAndFault :
    field (exec .start State.reset) (·.started) = some true ∧
    field (exec (.tick .fail) (runningAt neutralBank .arming 149)) (·.fault) = some true ∧
    field (exec .phaseArming { runningAt neutralBank .arming 149 with txFail := true }) (·.fault) = some true ∧
    (runningAt neutralBank .arming 149).cfg.Legal ∧ PositionLegal (runningAt neutralBank .arming 149) := by decide
theorem witness_NothingDependsOnTheIndicator :
    field (exec (.tick .ok) (runningAt neutralBank .neutral 130)) (·.led) = some true ∧
    reason (exec (.get (-1)) State.reset) = some (.getOutOfRange (-1)) := by decide
theorem witness_OperandWidthsOnlyLimitWhatIsPresented :
    decodeCmd Config.default 0x20080000 = .ok (.get 8) ∧ wellFormed narrow (.get 8) = false ∧
    decodeCmd narrow 0x20070000 = .ok (.get 7) ∧ reason (exec (.get 16) State.reset) = some (.getOutOfRange 16) := by decide
/-- Another interface: another answer, other events, another result, the same next event. -/
def otherInterface : Interface := ⟨[0x60000000, 0xF0000000], true, .rdData 992⟩
theorem witness_TheInterfaceIsNoState :
    (∀ p : Phase, Instr.tick .ok ≠ p.instr) ∧ State.reset.toInterface.txFail = State.reset.txFail ∧
    (withEvent (runningAt neutralBank .arming 149) 0x60000000).events = 0x60000000 :: [] ∧
    otherInterface.events = 0x60000000 :: [0xF0000000] ∧
    field (step (withEvent (runningAt neutralBank .arming 149) 0x60000000)) (·.phase) = some .armedHold :=
  ⟨fun p => by cases p <;> decide, rfl, rfl, rfl, by decide⟩
theorem witness_NoOperationChangesTheParameters :
    ∃ t, exec .reset { aborted with cfg := otherConfig, events := [0x60000000] } = .next t := ⟨_, rfl⟩
theorem witness_TransportFailedIsTakenPrecisely : IsRunning (runningAt neutralBank .disarmedHold 69) := by decide
theorem witness_AfterAFaultOnlyResetStartsAgain : aborted.fault = true ∧ RunStateLegal aborted := by decide
theorem witness_AfterAFaultOnlyResetStartsAgain_next : ∃ t, exec (.set 2 172) aborted = .next t := ⟨_, rfl⟩
theorem witness_ResetRestoresEveryField : (⟨true, false, false, true, 0⟩ : Pins).rst = true := by decide

theorem witness_EveryStepKeepsTheBankInRange :
    BankInRange (withEvent aborted 0x10001388).ch ∧
    field (step (withEvent aborted 0x10001388)) (chan ·.ch 0) = some 1811 := by decide
theorem witness_EveryStepKeepsRunStateAndPositionLegal :
    (withEvent (runningAt neutralBank .disarmedHold 69) 0x60000000).cfg.Legal ∧
    RunStateLegal (withEvent (runningAt neutralBank .disarmedHold 69) 0x60000000) ∧
    PositionLegal (withEvent (runningAt neutralBank .disarmedHold 69) 0x60000000) ∧
    field (step (withEvent (runningAt neutralBank .disarmedHold 69) 0x60000000)) (·.phase) = some .done := by decide
/-- Arming's first tick pending, two frames on the wire. -/
def armingNext : State :=
  { withEvent (runningAt neutralBank .arming 0) 0x60000000 with wire := [neutralFrame, frame177] }
/-- ThrottleHold's first tick pending. -/
def holdNext : State := { withEvent (runningAt neutralBank .throttleHold 0) 0x60000000 with wire := [frame177] }

theorem test_frames_legal : FrameLegal neutralFrame ∧ FrameLegal frame177 := by decide +kernel
theorem test_field_of_frame177 : unpackField frame177 2 = 177 := by decide +kernel

theorem witness_EveryStepKeepsTheWireLegal :
    BankInRange armingNext.ch ∧ WireLegal armingNext ∧ field (step armingNext) (·.framesSent) = some 3 := by
  refine ⟨by decide, ?_, by decide⟩
  intro f hf
  rcases List.mem_pair.1 hf with rfl | rfl
  · exact test_frames_legal.1
  · exact test_frames_legal.2
theorem witness_EveryStepKeepsTheThrottleBounded :
    holdNext.cfg.Legal ∧ RunStateLegal holdNext ∧ PositionLegal holdNext ∧ ThrottleBounded holdNext ∧
    field (step holdNext) (fun t => chan t.ch 2) = some 1400 := by
  refine ⟨by decide, by decide, by decide, ⟨?_, by decide⟩, by decide⟩
  intro f hf
  obtain rfl := List.mem_singleton.1 hf
  exact test_field_of_frame177.trans_le (by decide)
theorem witness_EveryStepKeepsTheBankAFunctionOfThePosition :
    armingNext.cfg.Legal ∧ RunStateLegal armingNext ∧ PositionLegal armingNext ∧ RunBankFollowsPosition armingNext ∧
    lastPosition armingNext.cfg armingNext.phase armingNext.t.toNat = some (.neutral, 139) ∧
    field (step armingNext) (fun t => chan t.ch 3) = some 1811 := by decide

/-- The hypotheses of the statements about a whole run. -/
theorem witness_PositionCountsTheTicksOfTheRun :
    let s := { runningAt neutralBank .neutral 0 with events := okTicks 3250 [0xF0000000] }
    s.cfg.Legal ∧ s.cfg.rampN = 246 ∧ s.started = true ∧ s.fault = false ∧ s.phase = .neutral ∧ s.t = 0 ∧
      s.events = okTicks 3250 [0xF0000000] :=
  ⟨by decide, rfl, rfl, rfl, rfl, rfl, rfl⟩
theorem witness_CompleteRunEndsInTheRestingState :
    let s := { State.reset with events := 0x50000000 :: okTicks 3250 [] }
    s.cfg.Legal ∧ s.cfg.rampN = 246 ∧ s.started = false ∧ s.fault = false ∧ s.phase = .neutral ∧ s.t = 0 ∧
      s.events = 0x50000000 :: okTicks 3250 [] :=
  ⟨by decide, rfl, rfl, rfl, rfl, rfl, rfl⟩
theorem witness_WireOfACompleteRunFollowsTheTable :
    let s := { runningAt neutralBank .neutral 0 with events := okTicks 3250 [] }
    s.cfg.Legal ∧ s.cfg.rampN = 246 ∧ s.started = true ∧ s.fault = false ∧ s.phase = .neutral ∧ s.t = 0 ∧
      s.events = okTicks 3250 [] :=
  ⟨by decide, rfl, rfl, rfl, rfl, rfl, rfl⟩

end Sys2Proof.Tests
end

/-! ## The state: reset, the range of the bank, the indicator (spec/10_state.md R22, R28, R34) -/

namespace Sys2Proof.Machine

/-! ### The reset state -/

theorem exec_reset (s : State) : exec .reset s = .next (resetCore s) := rfl

@[simp] theorem chan_reset (k : Fin 16) : chan State.reset.ch k = 992 := by
  simp [State.reset, chan_eq]

theorem bankInRange_reset : BankInRange State.reset.ch := by
  intro k
  rw [chan_reset]
  decide

/-- Settles O51: RESET leaves the core state of `State.reset`, whose fields are R34's. -/
theorem resetStateHoldsTheSpecsValues : Obligations.ResetStateHoldsTheSpecsValues := by
  intro s
  refine ⟨resetCore s, exec_reset s, fun u hu => ?_⟩
  have hcore : u.toCoreState = State.reset.toCoreState := by
    rcases List.mem_pair.1 hu with rfl | rfl
    · exact resetCore_toCoreState s
    · rfl
  rw [hcore]
  exact ⟨chan_reset, rfl, rfl, rfl, rfl, rfl, rfl⟩

/-! ### The range of the bank -/

/-- Whatever the transport answers, an iteration leaves the bank with the row's writes (42_sequencer R103,
60_exceptions R143). -/
@[simp] theorem iteration_ch (p : Phase) (s : State) : (iteration p s).ch = actedBank p s := by
  obtain ⟨-, h⟩ | ⟨-, -, h⟩ | ⟨-, -, h⟩ := iteration_cases p s <;> rw [h]

theorem bankInRange_iteration (p : Phase) {s : State} (h : BankInRange s.ch) : BankInRange (iteration p s).ch := by
  rw [iteration_ch]
  exact bankInRange_actedBank p h

/-- Every operation keeps the range: a bank changes only by clamped writes and by RESET. -/
theorem exec_keeps_bankInRange {i : Instr} {s t : State} (hs : BankInRange s.ch) (h : exec i s = .next t) :
    BankInRange t.ch := by
  obtain rfl | ⟨j, v, -, -, rfl⟩ | ⟨-, o, rfl⟩ | ⟨-, -, rfl⟩ | ⟨-, rfl⟩ | ⟨a, -, -, rfl⟩ | ⟨-, -, rfl⟩ :=
    exec_next_cases h
  · exact hs
  · exact bankInRange_bankSet hs j v
  · exact hs
  · exact hs
  · exact bankInRange_reset
  · exact bankInRange_iteration (s := s.latchAnswer a) s.phase hs
  · exact bankInRange_iteration s.phase hs

/-- Settles O53: a step waits or is one operation, and every operation keeps the range. -/
theorem everyStepKeepsTheBankInRange : Obligations.EveryStepKeepsTheBankInRange := by
  refine ⟨bankInRange_reset, fun s t hs h => ?_⟩
  obtain ⟨-, rfl⟩ | ⟨w, rest, i, -, -, hi⟩ := step_next_cases h
  · exact hs
  · exact exec_keeps_bankInRange (s := { s with events := rest, out := .idle }) hs hi

/-! ### The indicator: who writes it -/

theorem ledAfter_of_silent {p : Phase} (hn : p ≠ .neutral) (hh : p ≠ .throttleHold) (c : Config) (n : Nat) (b : Bool) :
    ledAfter c p n b = b := by
  cases p <;> simp_all [ledAfter, ledToggles]

/-- The indicator moves only in an iteration answered ok (42_sequencer R114). -/
theorem iteration_led (p : Phase) (s : State) :
    (iteration p s).led = if s.txFail then s.led else ledAfter s.cfg p s.t.toNat s.led := by
  obtain ⟨ha, h⟩ | ⟨ha, -, h⟩ | ⟨ha, -, h⟩ := iteration_cases p s <;> simp [h, ha]

theorem iteration_led_ne {p : Phase} {s : State} (h : (iteration p s).led ≠ s.led) :
    s.txFail = false ∧ (p = .neutral ∨ p = .throttleHold) := by
  rw [iteration_led] at h
  cases ha : s.txFail with
  | true => simp [ha] at h
  | false =>
    refine ⟨rfl, or_iff_not_imp_left.2 fun hn => not_not.1 fun hh => h ?_⟩
    simp [ha, ledAfter_of_silent hn hh]

theorem exec_led_ne {i : Instr} {s t : State} (h : exec i s = .next t) (hl : t.led ≠ s.led) :
    i = .reset ∨ (IsRunning s ∧ (s.phase = .neutral ∨ s.phase = .throttleHold) ∧
      (i = .tick .ok ∨ (i = s.phase.instr ∧ s.txFail = false))) := by
  obtain rfl | ⟨j, v, -, -, rfl⟩ | ⟨-, o, rfl⟩ | ⟨-, -, rfl⟩ | ⟨hi, -⟩ | ⟨a, rfl, hr, rfl⟩ | ⟨hi, hr, rfl⟩ :=
    exec_next_cases h
  · exact absurd rfl hl
  · exact absurd rfl hl
  · exact absurd rfl hl
  · exact absurd rfl hl
  · exact .inl hi
  · obtain ⟨ha, hp⟩ := iteration_led_ne (s := s.latchAnswer a) hl
    have hok : a = .ok := by cases a <;> simp_all
    exact .inr ⟨hr, hp, .inl (by rw [hok])⟩
  · obtain ⟨ha, hp⟩ := iteration_led_ne hl
    exact .inr ⟨hr, hp, .inr ⟨hi, ha⟩⟩

/-! ### The indicator: who reads it -/

/-- A result with the indicator of its next state replaced; a stop has no state to replace it in. -/
def resultWithLed (b : Bool) : Result → Result
  | .next t => .next (t.withLed b)
  | .fault f => .fault f
  | .refused r => .refused r

@[simp] theorem resultWithLed_next (b : Bool) (t : State) : resultWithLed b (.next t) = .next (t.withLed b) := rfl
@[simp] theorem resultWithLed_refused (b : Bool) (r : Refusal) : resultWithLed b (.refused r) = .refused r := rfl

theorem iteration_withLed (p : Phase) (s : State) (b : Bool) :
    ∃ b', iteration p (s.withLed b) = (iteration p s).withLed b' := by
  obtain ⟨ha, h⟩ | ⟨ha, hn, h⟩ | ⟨ha, hn, h⟩ := iteration_cases p s
  · exact ⟨b, by rw [h, iteration_fail p (s.withLed b) ha]; rfl⟩
  · exact ⟨ledAfter s.cfg p s.t.toNat b, by rw [h, iteration_ok_stay p (s.withLed b) ha hn]; rfl⟩
  · exact ⟨ledAfter s.cfg p s.t.toNat b, by rw [h, iteration_ok_last p (s.withLed b) ha hn]; rfl⟩

theorem rowTick_withLed (p : Phase) (s : State) (b : Bool) :
    ∃ b', rowTick p (s.withLed b) = (rowTick p s).withLed b' := by
  by_cases h : IsRunning s ∧ s.phase = p
  · rw [rowTick_selected h.1 h.2, rowTick_selected (s := s.withLed b) h.1 h.2]
    exact iteration_withLed p s b
  · rw [rowTick_other h, rowTick_other (s := s.withLed b) h]
    exact ⟨b, rfl⟩

theorem exec_row_withLed (p : Phase) (s : State) (b : Bool) :
    ∃ b', exec p.instr (s.withLed b) = resultWithLed b' (exec p.instr s) := by
  obtain ⟨b', h⟩ := rowTick_withLed p s b
  exact ⟨b', by rw [exec_row, exec_row, h, resultWithLed_next]⟩

theorem exec_tick_withLed (a : Answer) (s : State) (b : Bool) :
    ∃ b', exec (.tick a) (s.withLed b) = resultWithLed b' (exec (.tick a) s) := by
  by_cases hr : IsRunning s
  · obtain ⟨b', h⟩ := iteration_withLed s.phase (s.latchAnswer a) b
    refine ⟨b', ?_⟩
    rw [exec_tick_running hr, exec_tick_running (s := s.withLed b) hr, resultWithLed_next, ← h]
    rfl
  · exact ⟨b, by rw [exec_tick_idle hr, exec_tick_idle (s := s.withLed b) hr, resultWithLed_next]⟩

theorem exec_set_withLed (j v : Int) (s : State) (b : Bool) :
    exec (.set j v) (s.withLed b) = resultWithLed b (exec (.set j v) s) := by
  by_cases hr : IsRunning s
  · rw [exec_set_running hr, exec_set_running (s := s.withLed b) hr, resultWithLed_refused]
  · rw [exec_set_idle hr, exec_set_idle (s := s.withLed b) hr]
    rfl

theorem exec_get_withLed (j : Int) (s : State) (b : Bool) :
    exec (.get j) (s.withLed b) = resultWithLed b (exec (.get j) s) := by
  cases hk : chanIndex j with
  | none => rw [exec_get_out _ (chanIndex_eq_none.1 hk), exec_get_out _ (chanIndex_eq_none.1 hk), resultWithLed_refused]
  | some k =>
    rw [← chanIndex_eq_some.1 hk, exec_get_mem, exec_get_mem]
    rfl

theorem exec_start_started {s : State} (h : s.started = true) : exec .start s = .refused .alreadyStarted := by
  simp [exec, execStart, h]

theorem exec_start_idle {s : State} (h : s.started = false) : exec .start s = .next s.markStarted := by
  simp [exec, execStart, h]

theorem exec_start_withLed (s : State) (b : Bool) :
    exec .start (s.withLed b) = resultWithLed b (exec .start s) := by
  cases hs : s.started with
  | true => rw [exec_start_started hs, exec_start_started (s := s.withLed b) hs, resultWithLed_refused]
  | false =>
    rw [exec_start_idle hs, exec_start_idle (s := s.withLed b) hs]
    rfl

/-- No operation reads the indicator: from a state that differs in it alone, the answer differs in it alone (R28). -/
theorem exec_withLed (i : Instr) (s : State) (b : Bool) :
    ∃ b', exec i (s.withLed b) = resultWithLed b' (exec i s) := by
  cases i with
  | nop => exact ⟨b, rfl⟩
  | set j v => exact ⟨b, exec_set_withLed j v s b⟩
  | get j => exact ⟨b, exec_get_withLed j s b⟩
  | snapshot => exact ⟨b, rfl⟩
  | encode => exact ⟨b, rfl⟩
  | start => exact ⟨b, exec_start_withLed s b⟩
  | tick a => exact exec_tick_withLed a s b
  | reset => exact ⟨false, rfl⟩
  | phaseNeutral => exact exec_row_withLed .neutral s b
  | phaseArming => exact exec_row_withLed .arming s b
  | phaseArmedHold => exact exec_row_withLed .armedHold s b
  | phaseThrottleRampUp => exact exec_row_withLed .throttleRampUp s b
  | phaseThrottleHold => exact exec_row_withLed .throttleHold s b
  | phaseThrottleRampDown => exact exec_row_withLed .throttleRampDown s b
  | phaseThrottleFloorHold => exact exec_row_withLed .throttleFloorHold s b
  | phaseDisarming => exact exec_row_withLed .disarming s b
  | phaseDisarmedHold => exact exec_row_withLed .disarmedHold s b
  | phaseDone => exact exec_row_withLed .done s b

/-- Settles O45, by `exec_led_ne` for the writers of `led` and `exec_withLed` for its having no reader. -/
theorem nothingDependsOnTheIndicator : Obligations.NothingDependsOnTheIndicator := by
  refine ⟨fun i s t h hl => exec_led_ne h hl, fun i s t b h => ?_, fun i s r b h => ?_⟩
  · obtain ⟨b', hb⟩ := exec_withLed i s b
    rw [h] at hb
    exact ⟨b', hb⟩
  · obtain ⟨b', hb⟩ := exec_withLed i s b
    rw [h] at hb
    exact hb

end Sys2Proof.Machine

/-! ## The memory: the bits of a frame, reads and writes of the bank (spec/20_memory.md R43, R48, R55) -/

namespace Sys2Proof.Machine

/-! ### The place of a bit in the frame -/

/-- Bit `n` of the payload number is bit `n mod 8` of payload byte `n div 8` (41_codec R90 step 3). -/
theorem payloadByte_getLsbD (p n : Nat) : (payloadByte p (n / 8)).getLsbD (n % 8) = p.testBit n := by
  rw [payloadByte, BitVec.getLsbD_ofNat, Nat.testBit_div_two_pow, Nat.mod_add_div,
    decide_eq_true (Nat.mod_lt n (by decide)), Bool.true_and]

/-- Payload byte `i` is frame byte `i + 1` (41_codec R90 step 4). -/
theorem encodeFrame_payload (s : Vector Int 16) {i : Nat} (hi : i < 22) :
    (encodeFrame s).toList.getD (i + 1) 0 = payloadByte (packFields s.toList) i := by
  have hget : (frameOf (packFields s.toList))[i + 1] = payloadByte (packFields s.toList) i := by
    rw [frameOf_get, if_neg (by omega), if_pos (by omega), Nat.add_sub_cancel]
  rw [List.getD_eq_getElem _ _ (by simp; omega), Vector.getElem_toList]
  exact hget

/-- Bit `b` of field `k` is bit `11k + b` of the payload number (41_codec R90 step 2). -/
theorem packFields_testBit (l : List Int) {k b : Nat} (hk : k < l.length) (hb : b < 11) :
    (packFields l).testBit (11 * k + b) = (maskField l[k]).testBit b := by
  rw [← packFields_field l k hk, Nat.testBit_mod_two_pow, Nat.testBit_div_two_pow, decide_eq_true hb, Bool.true_and,
    Nat.add_comm b]

theorem encodeFrame_bit (s : Vector Int 16) (k : Fin 16) (b : Fin 11) :
    ((encodeFrame s).toList.getD ((11 * k.val + b.val) / 8 + 1) 0).getLsbD ((11 * k.val + b.val) % 8) =
      (maskField s[k]).testBit b.val := by
  have hk : k.val < s.toList.length := by simp
  rw [encodeFrame_payload s (by omega), payloadByte_getLsbD, packFields_testBit _ hk b.isLt, Vector.getElem_toList]
  rfl

/-- The encoder's mask keeps a channel's value: it has 11 bits already (10_state R21). -/
theorem maskField_chan (b : Bank) (k : Fin 16) : maskField (chan b k) = b[k].toNat := by
  have := b[k].isLt
  rw [maskField, chan_eq]
  omega

/-- Settles O23: through the payload number, in which bit `b` of field `k` is bit `11k + b`. -/
theorem bitOfChannelHasItsPlaceInTheFrame : Obligations.BitOfChannelHasItsPlaceInTheFrame := by
  intro bank k b
  rw [encodeFrame_bit, snapshotOf_get, maskField_chan, BitVec.testBit_toNat]

/-! ### Reads and SET done twice -/

/-- Of two writes to one index the last wins (40_channelbank R85). -/
theorem bankSet_bankSet (b : Bank) (i v w : Int) : bankSet (bankSet b i v) i w = bankSet b i w := by
  apply bank_ext
  intro k
  simp only [chan_bankSet]
  split <;> rfl

theorem exec_set_next {j v : Int} {s t : State} (h : exec (.set j v) s = .next t) :
    ¬ IsRunning s ∧ t = { s with ch := bankSet s.ch j v } := by
  by_cases hr : IsRunning s
  · rw [exec_set_running hr] at h
    cases h
  · rw [exec_set_idle hr] at h
    injection h with h
    exact ⟨hr, h.symm⟩

theorem exec_set_again {j v : Int} {s t : State} (h : exec (.set j v) s = .next t) :
    exec (.set j v) t = .next t := by
  obtain ⟨hr, rfl⟩ := exec_set_next h
  rw [exec_set_idle (s := { s with ch := bankSet s.ch j v }) hr, bankSet_bankSet]

theorem exec_get_next {j : Int} {s t : State} (h : exec (.get j) s = .next t) :
    ∃ k : Fin 16, (k.val : Int) = j ∧ t = { s with out := .rdData (readChan s.ch k) } := by
  cases hk : chanIndex j with
  | none =>
    rw [exec_get_out s (chanIndex_eq_none.1 hk)] at h
    cases h
  | some k =>
    obtain rfl := chanIndex_eq_some.1 hk
    rw [exec_get_mem] at h
    injection h with h
    exact ⟨k, rfl, h.symm⟩

/-! ### An iteration answered ok is not idempotent -/

theorem iteration_wire (p : Phase) (s : State) :
    (iteration p s).wire = if s.txFail then s.wire else s.wire ++ [actedFrame p s] := by
  obtain ⟨ha, h⟩ | ⟨ha, -, h⟩ | ⟨ha, -, h⟩ := iteration_cases p s <;> simp [h, ha]

/-- The tick counter moves even where it wraps. -/
theorem ofNat_succ_ne (x : BitVec 11) : BitVec.ofNat 11 (x.toNat + 1) ≠ x := by
  intro h
  have := congrArg BitVec.toNat h
  rw [BitVec.toNat_ofNat] at this
  omega

/-- An iteration answered ok moves the position, within the phase or to the next one (42_sequencer R104). -/
theorem iteration_position_ne {s : State} (hp : s.phase ≠ .done) (ha : s.txFail = false) :
    ((iteration s.phase s).phase, (iteration s.phase s).t) ≠ (s.phase, s.t) := by
  intro h
  obtain ⟨hph, ht⟩ := Prod.mk.inj h
  by_cases hn : s.t.toNat + 1 < phaseDur s.cfg s.phase
  · rw [iteration_ok_stay s.phase s ha hn] at ht
    exact ofNat_succ_ne s.t ht
  · rw [iteration_ok_last s.phase s ha hn] at hph
    exact nextPhase_ne hp hph

/-- Settles O18: a read drives `out` alone, SET writes what it wrote, and a TICK answered ok sends a frame and moves on.
The legal position is not needed, since `t + 1` differs from `t` even where 11 bits wrap. -/
theorem readsHaveNoSideEffects : Obligations.ReadsHaveNoSideEffects := by
  intro s
  refine ⟨fun i hi => ?_, fun j h0 h15 => ?_, fun j t h => ?_, fun j v t h => exec_set_again h, fun hr _ _ => ?_⟩
  · rcases List.mem_pair.1 hi with rfl | rfl <;> exact ⟨_, rfl, rfl, rfl⟩
  · obtain ⟨k, rfl⟩ : ∃ k : Fin 16, (k.val : Int) = j := ⟨⟨j.toNat, by omega⟩, by simp [h0]⟩
    exact ⟨_, exec_get_mem s k, rfl, exec_get_mem _ k⟩
  · obtain ⟨k, -, rfl⟩ := exec_get_next h
    rfl
  · refine ⟨_, exec_tick_running hr .ok, ?_, iteration_position_ne (s := s.latchAnswer .ok) hr.2.2 rfl⟩
    simp [iteration_wire]

/-! ### Who writes the bank -/

theorem not_isRunning_iff (s : State) :
    ¬ IsRunning s ↔ s.started = false ∨ s.phase = .done ∨ s.fault = true := by
  simp only [not_and_or, not_not, Bool.not_eq_true, Bool.not_eq_false]
  exact or_congr_right or_comm

/-- A running core refuses SET; START and the reads leave the bank. -/
theorem exec_ch_ne {i : Instr} {s t : State} (hr : IsRunning s) (h : exec i s = .next t) (hc : t.ch ≠ s.ch) :
    i = .reset ∨ (∃ a, i = .tick a) ∨ i = s.phase.instr := by
  obtain rfl | ⟨j, v, -, hn, -⟩ | ⟨-, o, rfl⟩ | ⟨-, -, rfl⟩ | ⟨hi, -⟩ | ⟨a, hi, -, -⟩ | ⟨hi, -, -⟩ :=
    exec_next_cases h
  · exact absurd rfl hc
  · exact absurd hr hn
  · exact absurd rfl hc
  · exact absurd rfl hc
  · exact .inl hi
  · exact .inr (.inl ⟨a, hi⟩)
  · exact .inr (.inr hi)

/-- Settles O43, by `exec_ch_ne` for the writers and by the answers of the reads and of SET. -/
theorem runningBankIsOwnedByTheSequencer : Obligations.RunningBankIsOwnedByTheSequencer :=
  ⟨fun _ _ _ hr h hc => exec_ch_ne hr h hc,
    fun s => ⟨⟨_, rfl⟩, ⟨_, rfl⟩, fun k => ⟨_, exec_get_mem s k⟩⟩,
    fun _ j v hr => exec_set_running hr j v,
    fun s j v h => ⟨_, exec_set_idle ((not_isRunning_iff s).2 h) j v⟩⟩

end Sys2Proof.Machine

/-! ## The encoding: illegal command words (spec/30_encoding.md R68) -/

namespace Sys2Proof

/-! ### What each part of the decoder rejects -/

/-- A check of the decoder rejects, or what stands behind it does. -/
theorem guard_error_iff {p : Prop} [Decidable p] {d : DecodeError} {r : Except DecodeError Instr} :
    (∃ e, (if p then .error d else r) = .error e) ↔ p ∨ ∃ e, r = .error e := by
  by_cases p <;> simp [*]

/-- An operation with neither index nor data rejects a word that has one (R66). -/
theorem decodePlain_error_iff (w : CmdWord) (i : Instr) :
    (∃ e, decodePlain w i = .error e) ↔ idxField w ≠ 0 ∨ datField w ≠ 0 := by
  simp only [decodePlain, guard_error_iff, reduceCtorEq, exists_false, or_false]

/-- TICK rejects a word with an index, or with a data bit other than the answer (R67). -/
theorem decodeTick_error_iff (w : CmdWord) :
    (∃ e, decodeTick w = .error e) ↔ idxField w ≠ 0 ∨ (datField w ≠ 0 ∧ datField w ≠ 1) := by
  rw [decodeTick, guard_error_iff]
  refine or_congr_right ?_
  split_ifs <;> simp_all

theorem admitOperands_error_iff (c : Config) (i : Instr) :
    (∃ e, admitOperands c i = .error e) ↔ wellFormed c i = false := by
  cases h : wellFormed c i <;> simp [admitOperands, h]

/-! ### Operands -/

/-- The operands of a SET or GET word are wider than the machine's narrower widths (log entry 5). -/
def OperandTooWide (c : Config) (w : CmdWord) : Prop :=
  ((opField w).toNat = 1 ∧ wellFormed c (.set (idxField w).toInt (datField w).toInt) = false) ∨
  ((opField w).toNat = 2 ∧ wellFormed c (.get (idxField w).toInt) = false)

/-- The two's-complement value of a field fits the field's width (R65). -/
theorem fitsSigned_toInt {n : Nat} (x : BitVec n) : fitsSigned n x.toInt = true :=
  (fitsSigned_iff n x.toInt).2 ⟨BitVec.le_toInt x, BitVec.toInt_lt⟩

theorem not_operandTooWide {c : Config} (hi : c.idxW = 8) (hr : c.rawW = 16) (w : CmdWord) : ¬ OperandTooWide c w := by
  simp [OperandTooWide, wellFormed, hi, hr, fitsSigned_toInt]

/-! ### R68 on the fields the decoder reads -/

theorem zField_ne_zero_iff (w : CmdWord) : zField w ≠ 0 ↔ w.toNat / 2 ^ 24 % 16 ≠ 0 := by
  rw [← BitVec.toNat_ne_iff_ne, zField_toNat]
  rfl

theorem idxField_ne_zero_iff (w : CmdWord) : idxField w ≠ 0 ↔ w.toNat / 2 ^ 16 % 256 ≠ 0 := by
  rw [← BitVec.toNat_ne_iff_ne, idxField_toNat]
  rfl

theorem datField_ne_iff (w : CmdWord) (d : BitVec 16) : datField w ≠ d ↔ w.toNat % 2 ^ 16 ≠ d.toNat := by
  rw [← BitVec.toNat_ne_iff_ne, datField_toNat]

/-- Bits 15:1 of a word are 0 exactly when its data are 0 or 1. -/
theorem datField_highBits_ne_zero_iff (w : CmdWord) :
    w.toNat % 2 ^ 16 / 2 ≠ 0 ↔ datField w ≠ 0 ∧ datField w ≠ 1 := by
  rw [datField_ne_iff, datField_ne_iff]
  change _ ↔ w.toNat % 2 ^ 16 ≠ 0 ∧ w.toNat % 2 ^ 16 ≠ 1
  omega

namespace Machine

theorem illegalCmd_iff_fields (w : CmdWord) :
    IllegalCmd w ↔
      (7 ≤ (opField w).toNat ∧ (opField w).toNat ≤ 14) ∨ zField w ≠ 0 ∨
      ((opField w).toNat ≠ 1 ∧ (opField w).toNat ≠ 2 ∧ idxField w ≠ 0) ∨
      ((opField w).toNat ≠ 1 ∧ (opField w).toNat ≠ 6 ∧ datField w ≠ 0) ∨
      ((opField w).toNat = 6 ∧ datField w ≠ 0 ∧ datField w ≠ 1) := by
  rw [← datField_highBits_ne_zero_iff, zField_ne_zero_iff, idxField_ne_zero_iff, datField_ne_iff, opField_toNat]
  rfl

/-- THE DECODER'S REFUSALS, with any parameters: the words R68 calls illegal, and operands that narrower widths exclude.
After the checks of `op` and `z` each operation rejects by the clauses of R68 about its own must-be-zero fields. -/
theorem decodeCmd_error_iff (c : Config) (w : CmdWord) :
    (∃ e, decodeCmd c w = .error e) ↔ IllegalCmd w ∨ OperandTooWide c w := by
  rw [illegalCmd_iff_fields, OperandTooWide, decodeCmd, guard_error_iff, guard_error_iff, or_assoc, or_assoc]
  refine or_congr_right (or_congr_right ?_)
  -- The cases of `op`: SET, GET and TICK, then RESET, the last case, then the operations of one code without operands.
  split
  case h_2 hop => simp [hop, admitOperands_error_iff]
  case h_3 hop =>
    rw [guard_error_iff, admitOperands_error_iff]
    simp [hop]
  case h_7 hop => simp [hop, decodeTick_error_iff]
  case h_8 =>
    rw [decodePlain_error_iff]
    tauto
  all_goals simp [*, decodePlain_error_iff]

/-! ### The step -/

/-- The model refuses an event the decoder rejects, with the decoder's reason. -/
theorem step_rejected {s : State} {w : CmdWord} {rest : List CmdWord} {e : DecodeError} (he : s.events = w :: rest)
    (hd : decodeCmd s.cfg w = .error e) : step s = .refused (.illegalWord e) := by
  simp [step, takeEvent, he, runEvent, hd]

/-- The hardware drops an event the model refuses (00_scope R11). -/
theorem hardwareStep_refused {s : State} {w : CmdWord} {rest : List CmdWord} {r : Refusal} (he : s.events = w :: rest)
    (h : step s = .refused r) : hardwareStep s = ({ s with events := rest, out := .idle }, some r) := by
  simp [hardwareStep, h, dropEvent, he]

/-- Settles O3, by `decodeCmd_error_iff`: with the widths of the fields no operand is too wide, and with any widths the
decoder has a reason against an illegal word, which the step gives. -/
theorem illegalWordsAreRefusedAndChangeNothing : Obligations.IllegalWordsAreRefusedAndChangeNothing := by
  refine fun w => ⟨fun c hi hr => ?_, fun s rest he hw => ?_⟩
  · rw [decodeCmd_error_iff, or_iff_left (not_operandTooWide hi hr w)]
  · obtain ⟨e, hd⟩ := (decodeCmd_error_iff s.cfg w).2 (.inl hw)
    have hs := step_rejected he hd
    exact ⟨e, hs, hardwareStep_refused he hs⟩

end Machine

end Sys2Proof

/-! ## The channel bank: NOP, SET, GET, SNAPSHOT and the clamp (spec/40_channelbank.md) -/

namespace Sys2Proof

/-! ### The words of SET and GET -/

/-- The number of a word with `z = 0` (30_encoding R64): R66 writes SET as `10iidddd` and GET as `20ii0000`. -/
theorem ofNat_eq_cmdWord (op : BitVec 4) (idx : BitVec 8) (dat : BitVec 16) :
    BitVec.ofNat 32 (0x10000000 * op.toNat + 0x10000 * idx.toNat + dat.toNat) = cmdWord op 0 idx dat := by
  have hsum : 0x10000000 * op.toNat + 0x10000 * idx.toNat + dat.toNat =
      op.toNat * 2 ^ 28 + 0 * 2 ^ 24 + idx.toNat * 2 ^ 16 + dat.toNat := by omega
  rw [hsum]
  rfl

theorem decodeCmd_set (c : Config) (idx : BitVec 8) (dat : BitVec 16) :
    decodeCmd c (cmdWord 0x1 0 idx dat) = admitOperands c (.set idx.toInt dat.toInt) := by
  simp [decodeCmd, opField_cmdWord, zField_cmdWord, idxField_cmdWord, datField_cmdWord]

theorem decodeCmd_get (c : Config) (idx : BitVec 8) :
    decodeCmd c (cmdWord 0x2 0 idx 0) = admitOperands c (.get idx.toInt) := by
  simp [decodeCmd, opField_cmdWord, zField_cmdWord, idxField_cmdWord, datField_cmdWord]

namespace Machine

/-- Settles O10: NOP is decoded and performed by definition. -/
theorem nopHasNoEffect : Obligations.NopHasNoEffect :=
  ⟨decodeCmd_nop, fun _ => rfl⟩

/-! ### The clamp -/

theorem toChan_clampRaw_toNat (v : Int) : ((toChan (clampRaw v)).toNat : Int) = clampRaw v := by
  obtain ⟨hlo, hhi⟩ := clampRaw_range v
  exact toChan_toNat (by omega) (by omega)

theorem clampRaw_clampRaw (v : Int) : clampRaw (clampRaw v) = clampRaw v :=
  clampRaw_of_mem (clampRaw_range v).1 (clampRaw_range v).2

theorem clampRaw_mono {v w : Int} (h : v ≤ w) : clampRaw v ≤ clampRaw w := by
  rw [clampRaw_eq, clampRaw_eq]
  split_ifs <;> omega

/-- Settles O12, from the three ranges of the clamp. -/
theorem clampSaturates : Obligations.ClampSaturates := fun v _ =>
  ⟨clampRaw_of_lt, clampRaw_of_gt, clampRaw_of_mem, (clampRaw_range v).1, (clampRaw_range v).2,
    toChan_clampRaw_toNat v, clampRaw_clampRaw v, clampRaw_mono⟩

/-! ### SET -/

/-- Settles O11: the word is the `cmdWord` of SET, and the new bank is `bankSet`'s. -/
theorem setIsAClampedWrite : Obligations.SetIsAClampedWrite := by
  refine ⟨fun c idx dat hw => ?_, fun s i v => ⟨fun hr => exec_set_running hr i v, fun hr => ?_⟩⟩
  · calc
      _ = decodeCmd c (cmdWord 0x1 0 idx dat) := congrArg (decodeCmd c) (ofNat_eq_cmdWord 0x1 idx dat)
      _ = admitOperands c (.set idx.toInt dat.toInt) := decodeCmd_set c idx dat
      _ = .ok (.set idx.toInt dat.toInt) := admitOperands_eq_ok.2 ⟨rfl, hw⟩
  · exact ⟨bankSet s.ch i v, exec_set_idle hr i v, chan_bankSet s.ch i v⟩

/-- Settles O14: the step is SET in the state without the event, which runs exactly when `s` runs. -/
theorem hostSetWhileRunningIsDroppedAndRefused : Obligations.HostSetWhileRunningIsDroppedAndRefused := by
  intro s w rest i v he hd
  have hstep := step_event he hd
  refine ⟨fun hr => ?_, fun hn => ?_⟩
  · rw [exec_set_running (s := { s with events := rest, out := .idle }) hr] at hstep
    exact ⟨hstep, hardwareStep_refused he hstep⟩
  · rw [exec_set_idle (s := { s with events := rest, out := .idle }) ((not_isRunning_iff s).2 hn)] at hstep
    exact ⟨_, hstep, rfl, chan_bankSet s.ch i v⟩

/-! ### GET -/

theorem bankInRange_toNat {b : Bank} (h : BankInRange b) (k : Fin 16) : 172 ≤ b[k].toNat ∧ b[k].toNat ≤ 1811 := by
  have hk := h k
  rw [chan_eq] at hk
  omega

theorem thenExec_set_get {s : State} (h : ¬ IsRunning s) (k : Fin 16) (v : Int) :
    thenExec (exec (.set (k.val : Int) v) s) (.get (k.val : Int)) =
      .next { s with ch := bankSet s.ch k.val v, out := .rdData (readChan (bankSet s.ch k.val v) k) } := by
  rw [exec_set_idle h]
  exact exec_get_mem _ k

/-- Settles O15: the word is the `cmdWord` of GET, and a GET after SET reads what `bankSet` wrote. -/
theorem getReadsOneRegister : Obligations.GetReadsOneRegister := by
  refine ⟨fun c idx hw => ?_, fun s i => ⟨?_, fun hi => exec_get_out s hi⟩⟩
  · calc
      _ = decodeCmd c (cmdWord 0x2 0 idx 0) := congrArg (decodeCmd c) (ofNat_eq_cmdWord 0x2 idx 0)
      _ = admitOperands c (.get idx.toInt) := decodeCmd_get c idx
      _ = .ok (.get idx.toInt) := admitOperands_eq_ok.2 ⟨rfl, hw⟩
  · rintro k rfl
    refine ⟨exec_get_mem s k, fun hb => bankInRange_toNat hb k, fun hr v => ?_⟩
    have hread : chan (bankSet s.ch k.val v) k = clampRaw v := by rw [chan_bankSet, if_pos rfl]
    exact ⟨_, _, thenExec_set_get hr k v, rfl, hread⟩

/-! ### SNAPSHOT -/

/-- A register's value needs no mask: it has 11 bits (10_state R21). -/
theorem maskField_toNat (x : Chan) : maskField (x.toNat : Int) = x.toNat := by
  have := x.isLt
  rw [maskField]
  omega

/-- The number on `snap` is the payload number of the registers' values. -/
theorem foldr_toNat_eq_packFields (l : List Chan) :
    l.foldr (fun v acc => v.toNat + 2 ^ 11 * acc) 0 = packFields (l.map fun v => (v.toNat : Int)) := by
  induction l with
  | nil => rfl
  | cons x xs ih => rw [List.foldr_cons, ih, List.map_cons, packFields, maskField_toNat]

theorem snapBits_toNat (b : Bank) : (snapBits b).toNat = packFields (b.toList.map fun v => (v.toNat : Int)) := by
  have hlt := packFields_lt (b.toList.map fun v => (v.toNat : Int))
  rw [List.length_map, Vector.length_toList] at hlt
  rw [snapBits, BitVec.toNat_ofNat, foldr_toNat_eq_packFields, Nat.mod_eq_of_lt hlt]

/-- Register `k` stands in bits `11k+10:11k` of `snap` (30_encoding R73). -/
theorem snapBits_extractLsb' (b : Bank) (k : Fin 16) : (snapBits b).extractLsb' (11 * k.val) 11 = b[k] := by
  apply BitVec.eq_of_toNat_eq
  rw [BitVec.extractLsb'_toNat, Nat.shiftRight_eq_div_pow, snapBits_toNat, packFields_field _ _ (by simp),
    List.getElem_map, Vector.getElem_toList, maskField_toNat]
  rfl

/-- Settles O16: SNAPSHOT drives the bank, and `snapBits_extractLsb'` finds each register on `snap`. -/
theorem snapshotReadsAllRegisters : Obligations.SnapshotReadsAllRegisters :=
  ⟨decodeCmd_snapshot, fun s => ⟨rfl, bankInRange_toNat, snapBits s.ch, rfl, snapBits_extractLsb' s.ch⟩⟩

end Machine

end Sys2Proof

/-! ## The codec: the payload number, Encode, Unpack and ENCODE (spec/41_codec.md R90, R93 to R95) -/

namespace Sys2Proof.Machine

/-! ### The payload number as a sum (R90 step 2) -/

theorem packFields_ofFn {n : Nat} (f : Fin n → Int) :
    (packFields (List.ofFn f) : Int) = ∑ k : Fin n, (f k % 2048) * 2 ^ (11 * k.val) := by
  induction n with
  | zero => rfl
  | succ n ih =>
    have hshift (k : Fin n) : (f k.succ % 2048) * 2 ^ (11 * k.succ.val) =
        2 ^ 11 * ((f k.succ % 2048) * 2 ^ (11 * k.val)) := by
      rw [Fin.val_succ]
      ring
    rw [List.ofFn_succ, packFields, Fin.sum_univ_succ, Finset.sum_congr rfl fun k _ => hshift k, ← Finset.mul_sum,
      ← ih fun k => f k.succ, Nat.cast_add, Nat.cast_mul, maskField_int]
    simp

theorem packFields_toList (s : Vector Int 16) :
    (packFields s.toList : Int) = ∑ k : Fin 16, (s[k] % 2048) * 2 ^ (11 * k.val) := by
  have hs : s.toList = List.ofFn fun k : Fin 16 => s[k] := by
    rw [← Vector.toList_ofFn]
    exact congrArg Vector.toList (Vector.ext fun i hi => by simp)
  rw [hs, packFields_ofFn]

theorem packFields_toList_lt (s : Vector Int 16) : packFields s.toList < 2 ^ 176 := by
  have h := packFields_lt s.toList
  rwa [Vector.length_toList] at h

/-! ### The bytes of a frame (R90 steps 3 and 4) -/

theorem encodeFrame_fixedBytes (s : Vector Int 16) :
    (encodeFrame s)[0] = 0x0F ∧ (encodeFrame s)[23] = 0x00 ∧ (encodeFrame s)[24] = 0x00 :=
  ⟨frameOf_get _ 0 (by decide), frameOf_get _ 23 (by decide), frameOf_get _ 24 (by decide)⟩

/-- Payload byte `i` of a frame around `p`. -/
theorem frameOf_payload (p : Nat) {i : Nat} (hi : i < 22) : (frameOf p)[i + 1] = payloadByte p i := by
  rw [frameOf_get, if_neg (by omega), if_pos (by omega), Nat.add_sub_cancel]

/-- Settles O19: the payload number is `packFields`, a sum below `2 ^ 176`, and the frame is the one around it. -/
theorem encodeIsTheFourStepAlgorithm : Obligations.EncodeIsTheFourStepAlgorithm := by
  intro s
  obtain ⟨h0, h23, h24⟩ := encodeFrame_fixedBytes s
  refine ⟨packFields s.toList, packFields_toList s, packFields_toList_lt s, h0, h23, h24, fun i => ?_⟩
  rw [encodeFrame, frameOf_payload _ i.isLt, payloadByte_toNat]

/-- Settles O21: the payload number, as a sum, reads its inputs through `% 2048` alone. -/
theorem frameShapeAndMaskedValuesOnly : Obligations.FrameShapeAndMaskedValuesOnly := by
  intro s u
  obtain ⟨h0, h23, h24⟩ := encodeFrame_fixedBytes s
  refine ⟨Vector.length_toList, h0, h23, h24, fun h => congrArg frameOf (Int.ofNat_inj.1 ?_)⟩
  calc
    (packFields s.toList : Int) = ∑ k : Fin 16, (s[k] % 2048) * 2 ^ (11 * k.val) := packFields_toList s
    _ = ∑ k : Fin 16, (u[k] % 2048) * 2 ^ (11 * k.val) := Finset.sum_congr rfl fun k _ => by rw [h k]
    _ = packFields u.toList := (packFields_toList u).symm

/-! ### Unpack (R94) -/

/-- The payload bytes after the first are those of the number without its low 8 bits. -/
theorem payloadByte_succ (p i : Nat) : payloadByte p (i + 1) = payloadByte (p / 2 ^ 8) i := by
  rw [payloadByte, payloadByte, Nat.div_div_eq_div_mul, ← pow_add, Nat.mul_succ, Nat.add_comm 8]

/-- The little-endian number of the first `n` payload bytes is the number modulo `2 ^ (8 * n)`. -/
theorem foldr_payloadBytes (n p : Nat) :
    ((List.range n).map (payloadByte p)).foldr (fun b acc => b.toNat + 2 ^ 8 * acc) 0 = p % 2 ^ (8 * n) := by
  induction n generalizing p with
  | zero => simp [Nat.mod_one]
  | succ n ih =>
    have htail : (List.range n).map (payloadByte p ∘ Nat.succ) = (List.range n).map (payloadByte (p / 2 ^ 8)) :=
      List.map_congr_left fun i _ => payloadByte_succ p i
    have hpow : 2 ^ (8 * (n + 1)) = 2 ^ 8 * 2 ^ (8 * n) := by rw [← pow_add, Nat.mul_succ, Nat.add_comm]
    rw [List.range_succ_eq_map, List.map_cons, List.map_map, htail, List.foldr_cons, ih, hpow, Nat.mod_mul,
      payloadByte_toNat]
    simp

theorem frameOf_payloadBytes (p : Nat) :
    ((frameOf p).toList.drop 1).take 22 = (List.range 22).map (payloadByte p) := by
  apply List.ext_getElem
  · simp
  · intro i _ hi
    rw [List.length_map, List.length_range] at hi
    rw [List.getElem_take, List.getElem_drop, Vector.getElem_toList, List.getElem_map, List.getElem_range]
    simp only [Nat.add_comm 1 i]
    exact frameOf_payload p hi

/-- A frame carries its payload number, which has 176 bits. -/
theorem payloadOf_frameOf {p : Nat} (h : p < 2 ^ 176) : payloadOf (frameOf p) = p := by
  rw [payloadOf, frameOf_payloadBytes, foldr_payloadBytes, Nat.mod_eq_of_lt h]

theorem unpackField_encodeFrame (s : Vector Int 16) (k : Fin 16) :
    unpackField (encodeFrame s) k.val = maskField s[k] := by
  have hk : k.val < s.toList.length := by simp
  rw [unpackField, encodeFrame, payloadOf_frameOf (packFields_toList_lt s), packFields_field _ _ hk,
    Vector.getElem_toList]
  rfl

theorem unpackField_encodeFrame_int (s : Vector Int 16) (k : Fin 16) :
    (unpackField (encodeFrame s) k.val : Int) = s[k] % 2048 := by
  rw [unpackField_encodeFrame, maskField_int]

/-- Settles O22: a frame carries its payload number, whose fields are the masked values; values in 0..2047 are their own
masked values. -/
theorem unpackOfEncodeIsTheMaskedSnapshot : Obligations.UnpackOfEncodeIsTheMaskedSnapshot := by
  refine ⟨unpackField_encodeFrame_int, fun s u hs hu h => Vector.ext fun i hi => ?_⟩
  have hmask : s[i] % 2048 = u[i] % 2048 := by
    have hs' := unpackField_encodeFrame_int s ⟨i, hi⟩
    rw [h] at hs'
    exact hs'.symm.trans (unpackField_encodeFrame_int u ⟨i, hi⟩)
  obtain ⟨hs0, hs1⟩ : 0 ≤ s[i] ∧ s[i] ≤ 2047 := hs ⟨i, hi⟩
  obtain ⟨hu0, hu1⟩ : 0 ≤ u[i] ∧ u[i] ≤ 2047 := hu ⟨i, hi⟩
  omega

/-! ### The operation ENCODE (R95) -/

theorem exec_encode (s : State) :
    exec .encode s = .next { s with out := .encFrame (encodeFrame (snapshotOf s.ch)) } := rfl

/-- Field `k` of the frame of a bank is the bank's register `k`. -/
theorem unpackField_snapshotOf (b : Bank) (k : Fin 16) :
    unpackField (encodeFrame (snapshotOf b)) k.val = b[k].toNat := by
  rw [unpackField_encodeFrame, snapshotOf_get, maskField_chan]

/-- Whatever the transport answers, an iteration drives the frame of the bank it leaves (42_sequencer R103). -/
theorem iteration_out (p : Phase) (s : State) :
    (iteration p s).out = .txFrame (encodeFrame (snapshotOf (iteration p s).ch)) := by
  rw [iteration_ch]
  obtain ⟨-, h⟩ | ⟨-, -, h⟩ | ⟨-, -, h⟩ := iteration_cases p s <;> rw [h] <;> rfl

/-- Settles O17: the fields of the frame are the registers, and a TICK drives the frame of the bank it leaves. -/
theorem encodeShowsTheFrameOfTheBank : Obligations.EncodeShowsTheFrameOfTheBank := by
  refine ⟨decodeCmd_encode, fun s => ⟨exec_encode s, fun hb k => ?_, fun hr a => ?_⟩⟩
  · rw [unpackField_snapshotOf]
    exact bankInRange_toNat hb k
  · exact ⟨_, _, exec_tick_running hr a, iteration_out s.phase (s.latchAnswer a), exec_encode _⟩

end Sys2Proof.Machine

/-! ## The sequencer: START, TICK and the rows of the phase table (spec/42_sequencer.md R101 to R117) -/

namespace Sys2Proof.Machine

/-! ### START, and a TICK of a core that is not running (R101, R102) -/

/-- Settles O26: the only legal run state with `started = 0` is the idle one, and the hardware drops the second START
that `exec_start_started` refuses. -/
theorem startBeginsTheOneRun : Obligations.StartBeginsTheOneRun := by
  refine ⟨decodeCmd_start, fun s => ⟨fun hs => ⟨exec_start_idle hs, ?_⟩, fun hs => ⟨exec_start_started hs, ?_⟩⟩⟩
  · rintro (⟨-, -, hp, ht⟩ | ⟨h, -⟩ | ⟨h, -⟩ | ⟨h, -⟩)
    · exact ⟨hp, ht⟩
    all_goals exact absurd (hs.symm.trans h) (by decide)
  · intro rest he
    refine hardwareStep_refused he ?_
    rw [step_event he (decodeCmd_start s.cfg)]
    exact exec_start_started hs

/-- Settles O27, by `exec_tick_idle`. -/
theorem tickOfAnIdleCoreHasNoEffect : Obligations.TickOfAnIdleCoreHasNoEffect := fun s a h =>
  exec_tick_idle ((not_isRunning_iff s).2 (h.imp_right Or.symm)) a

/-! ### What moves the position (R103, R104) -/

theorem exec_row_selected {p : Phase} {s : State} (hr : IsRunning s) (hp : s.phase = p) :
    exec p.instr s = .next (iteration p s) := by
  rw [exec_row, rowTick_selected hr hp]

/-- A TICK of a running core performs the row its position selects, on the transport's answer (R103). -/
theorem exec_tick_eq_row {s : State} (h : IsRunning s) (a : Answer) :
    exec (.tick a) s = exec s.phase.instr (s.latchAnswer a) := by
  rw [exec_tick_running h, exec_row_selected (p := s.phase) (s := s.latchAnswer a) h rfl]

/-- An iteration answered ok moves the position to its successor: the durations of a legal configuration fit `t`, so the
count does not wrap. -/
theorem iteration_positionAdvanced {s : State} (hc : s.cfg.Legal) (hpos : PositionLegal s) (hp : s.phase ≠ .done)
    (ha : s.txFail = false) : PositionAdvanced s (iteration s.phase s) := by
  have hdur := (phaseDur_bounds hc hp).2
  have ht := hpos.1 hp
  by_cases hn : s.t.toNat + 1 < phaseDur s.cfg s.phase
  · rw [iteration_ok_stay s.phase s ha hn]
    exact .inl ⟨hn, rfl, by rw [BitVec.toNat_ofNat]; omega⟩
  · rw [iteration_ok_last s.phase s ha hn]
    exact .inr ⟨by omega, nextPhase_code hp, rfl⟩

/-- Answered fail an iteration leaves the position; answered ok it sends a frame and moves the position. -/
theorem iteration_position {s : State} (hc : s.cfg.Legal) (hpos : PositionLegal s) (hp : s.phase ≠ .done) :
    ((iteration s.phase s).phase = s.phase ∧ (iteration s.phase s).t = s.t ∧ (iteration s.phase s).wire = s.wire) ∨
    ((iteration s.phase s).wire.length = s.wire.length + 1 ∧ PositionAdvanced s (iteration s.phase s)) := by
  cases ha : s.txFail with
  | true =>
    rw [iteration_fail s.phase s ha]
    exact .inl ⟨rfl, rfl, rfl⟩
  | false =>
    exact .inr ⟨by simp [iteration_wire, ha], iteration_positionAdvanced hc hpos hp ha⟩

theorem exec_position {i : Instr} {s t : State} (hc : s.cfg.Legal) (hpos : PositionLegal s) (hi : i ≠ .reset)
    (h : exec i s = .next t) :
    (t.phase = s.phase ∧ t.t = s.t ∧ t.wire = s.wire) ∨
    (IsRunning s ∧ t.wire.length = s.wire.length + 1 ∧ PositionAdvanced s t) := by
  obtain rfl | ⟨j, v, -, -, rfl⟩ | ⟨-, o, rfl⟩ | ⟨-, -, rfl⟩ | ⟨hr, -⟩ | ⟨a, -, hr, rfl⟩ | ⟨-, hr, rfl⟩ :=
    exec_next_cases h
  · exact .inl ⟨rfl, rfl, rfl⟩
  · exact .inl ⟨rfl, rfl, rfl⟩
  · exact .inl ⟨rfl, rfl, rfl⟩
  · exact .inl ⟨rfl, rfl, rfl⟩
  · exact absurd hr hi
  · exact (iteration_position (s := s.latchAnswer a) hc hpos hr.2.2).imp_right fun hm => ⟨hr, hm⟩
  · exact (iteration_position hc hpos hr.2.2).imp_right fun hm => ⟨hr, hm⟩

/-- Settles O40, by `exec_position`, `iteration_positionAdvanced` and `exec_tick_eq_row`. -/
theorem positionMovesOnlyForward : Obligations.PositionMovesOnlyForward :=
  ⟨fun _ _ _ hc hpos hi h => exec_position hc hpos hi h,
    fun s hc hpos hr => ⟨_, exec_tick_running hr .ok,
      iteration_positionAdvanced (s := s.latchAnswer .ok) hc hpos hr.2.2 rfl⟩,
    fun _ a hr => exec_tick_eq_row hr a⟩

/-! ### What ends a run (R117) -/

theorem exec_position_ne {i : Instr} {s t : State} (h : exec i s = .next t) (hm : (t.phase, t.t) ≠ (s.phase, s.t)) :
    i = .reset ∨ (∃ a, i = .tick a) ∨ ∃ p : Phase, i = p.instr := by
  obtain rfl | ⟨j, v, -, -, rfl⟩ | ⟨-, o, rfl⟩ | ⟨-, -, rfl⟩ | ⟨hi, -⟩ | ⟨a, hi, -, -⟩ | ⟨hi, -, -⟩ :=
    exec_next_cases h
  · exact absurd rfl hm
  · exact absurd rfl hm
  · exact absurd rfl hm
  · exact absurd rfl hm
  · exact .inl hi
  · exact .inr (.inl ⟨a, hi⟩)
  · exact .inr (.inr ⟨s.phase, hi⟩)

/-- An iteration that ends a run was the last of the table, or its frame was answered fail. -/
theorem iteration_ends_run {s : State} (hr : IsRunning s) (hend : ¬ IsRunning (iteration s.phase s)) :
    ((iteration s.phase s).phase = .done ∧ (iteration s.phase s).fault = false ∧ (iteration s.phase s).wire ≠ s.wire) ∨
    ((iteration s.phase s).fault = true ∧ (iteration s.phase s).txFail = true) := by
  obtain ⟨hs, hf, hp⟩ := hr
  obtain ⟨ha, h⟩ | ⟨-, -, h⟩ | ⟨-, -, h⟩ := iteration_cases s.phase s
  · rw [h]
    exact .inr ⟨rfl, ha⟩
  · rw [h] at hend
    exact absurd ⟨hs, hf, hp⟩ hend
  · rw [h] at hend ⊢
    have hdone : nextPhase s.phase = .done := not_not.1 fun hn => hend ⟨hs, hf, hn⟩
    exact .inl ⟨hdone, hf, by simp⟩

theorem exec_ends_run {i : Instr} {s t : State} (h : exec i s = .next t) (hr : IsRunning s) (hend : ¬ IsRunning t) :
    i = .reset ∨ (t.phase = .done ∧ t.fault = false ∧ t.wire ≠ s.wire) ∨ (t.fault = true ∧ t.txFail = true) := by
  obtain rfl | ⟨j, v, -, hn, -⟩ | ⟨-, o, rfl⟩ | ⟨-, hs, -⟩ | ⟨hi, -⟩ | ⟨a, -, -, rfl⟩ | ⟨-, -, rfl⟩ :=
    exec_next_cases h
  · exact absurd hr hend
  · exact absurd hr hn
  · exact absurd hr hend
  · exact absurd (hr.1.symm.trans hs) (by decide)
  · exact .inl hi
  · exact .inr (iteration_ends_run (s := s.latchAnswer a) hr hend)
  · exact .inr (iteration_ends_run hr hend)

/-- Settles O41, by `exec_position_ne` and `exec_ends_run`. -/
theorem nothingButTicksMovesTheSequencer : Obligations.NothingButTicksMovesTheSequencer :=
  fun _ _ _ h => ⟨exec_position_ne h, exec_ends_run h⟩

/-! ### One row of the phase table, whichever it is (R103, R143) -/

theorem decodePhase_code (p : Phase) : decodePhase p.code = .ok p.instr := by
  rw [decodePhase, phaseOfCode_code]

theorem ofNat_toNat_add_one (x : BitVec 11) : BitVec.ofNat 11 (x.toNat + 1) = x + 1 := by
  rw [BitVec.ofNat_add, BitVec.ofNat_toNat, BitVec.setWidth_eq]
  rfl

/-- An iteration answered ok, with the two ends of R104 in one. -/
theorem iteration_ok (p : Phase) (s : State) (h : s.txFail = false) :
    iteration p s = { s with
      ch := actedBank p s
      out := .txFrame (actedFrame p s)
      wire := s.wire ++ [actedFrame p s]
      led := ledAfter s.cfg p s.t.toNat s.led
      phase := if s.t.toNat + 1 < phaseDur s.cfg p then p else nextPhase p
      t := if s.t.toNat + 1 < phaseDur s.cfg p then s.t + 1 else 0 } := by
  by_cases hn : s.t.toNat + 1 < phaseDur s.cfg p
  · rw [iteration_ok_stay p s h hn, ofNat_toNat_add_one, if_pos hn, if_pos hn]
  · rw [iteration_ok_last p s h hn, if_neg hn, if_neg hn]

/-- EVERY ROW ACTS AS R103 SAYS, once `dur` is the table's and `value` is what the row's writes leave in each channel. -/
theorem phaseRowActs {p : Phase} {dur : Config → Nat} {value : Config → Nat → Fin 16 → Option Int}
    (hdur : ∀ c, dur c = phaseDur c p)
    (hvalue : ∀ s : State, s.cfg.Legal → s.t.toNat < phaseDur s.cfg p →
      ∀ k, chan (actedBank p s) k = (value s.cfg s.t.toNat k).getD (chan s.ch k)) :
    PhaseRowActs p.instr p.code p (nextPhase p) dur value := by
  refine ⟨decodePhase_code p, ?_⟩
  rintro s hc hpos hr rfl
  refine ⟨actedBank s.phase s, hvalue s hc (hpos.1 hr.2.2), fun ha => ?_, fun ha => ?_⟩
  · refine ⟨_, fun hn hh => ledAfter_of_silent hn hh s.cfg s.t.toNat s.led, ?_⟩
    rw [exec_row_selected hr rfl, iteration_ok s.phase s ha, hdur]
    rfl
  · rw [exec_row_selected hr rfl, iteration_fail s.phase s ha]
    rfl

/-- The frame a row submits, when every channel is written by the row or held its value before. -/
theorem PhaseRowActs.submits {i : Instr} {code : PhaseCode} {p nxt : Phase} {dur : Config → Nat}
    {value : Config → Nat → Fin 16 → Option Int} (h : PhaseRowActs i code p nxt dur value)
    {before : List (Fin 16 × Int)} (vs : Vector Int 16)
    (hvs : ∀ (c : Config) (n : Nat), c.roles = [0, 1, 2, 3, 4, 5] →
      ∀ k : Fin 16, value c n k = some vs[k] ∨ (value c n k = none ∧ (k, vs[k]) ∈ before)) :
    PhaseRowSubmits i p before (encodeFrame vs) := by
  intro s hc hroles hpos hr hp hbefore
  obtain ⟨b, hb, hok, hfail⟩ := h.2 s hc hpos hr hp
  have hframe : encodeFrame (snapshotOf b) = encodeFrame vs := by
    refine encodeFrame_congr fun k => ?_
    rw [snapshotOf_get, hb]
    obtain hk | ⟨hk, hmem⟩ := hvs s.cfg s.t.toNat hroles k
    · rw [hk, Option.getD_some]
    · rw [hk, Option.getD_none]
      exact hbefore _ hmem
  rw [← hframe]
  cases ha : s.txFail with
  | true => exact ⟨_, hfail ha, rfl⟩
  | false =>
    obtain ⟨l, -, hnext⟩ := hok ha
    exact ⟨_, hnext, rfl⟩

/-- A row of the table with the frame it prints: the two halves of the statements of 42_sequencer section 4. -/
theorem phaseRowActs_and_submits {p : Phase} {dur : Config → Nat} {value : Config → Nat → Fin 16 → Option Int}
    {before : List (Fin 16 × Int)} {f : Frame} (vs : Vector Int 16) (hf : encodeFrame vs = f)
    (hdur : ∀ c, dur c = phaseDur c p)
    (hvalue : ∀ s : State, s.cfg.Legal → s.t.toNat < phaseDur s.cfg p →
      ∀ k, chan (actedBank p s) k = (value s.cfg s.t.toNat k).getD (chan s.ch k))
    (hvs : ∀ (c : Config) (n : Nat), c.roles = [0, 1, 2, 3, 4, 5] →
      ∀ k : Fin 16, value c n k = some vs[k] ∨ (value c n k = none ∧ (k, vs[k]) ∈ before)) :
    PhaseRowActs p.instr p.code p (nextPhase p) dur value ∧ PhaseRowSubmits p.instr p before f := by
  have hrow := phaseRowActs hdur hvalue
  exact ⟨hrow, hf ▸ hrow.submits vs hvs⟩

/-! ### The frames the rows print -/

/-- The bank of a run with the default roles: throttle in channel 2, yaw in channel 3, every other channel at rest
(10_state R35). -/
def runSnapshot (thr yaw : Int) : Vector Int 16 :=
  #v[992, 992, thr, yaw, 172, 172, 992, 992, 992, 992, 992, 992, 992, 992, 992, 992]

theorem encodeFrame_runSnapshot_neutral : encodeFrame (runSnapshot 172 992) =
    #v[0x0F, 0xE0, 0x03, 0x1F, 0x2B, 0xC0, 0xC7, 0x0A, 0x56, 0x80, 0x0F, 0x7C, 0xE0, 0x03, 0x1F, 0xF8, 0xC0, 0x07, 0x3E,
      0xF0, 0x81, 0x0F, 0x7C, 0x00, 0x00] := by
  decide

theorem encodeFrame_runSnapshot_arming : encodeFrame (runSnapshot 172 1811) =
    #v[0x0F, 0xE0, 0x03, 0x1F, 0x2B, 0x26, 0xCE, 0x0A, 0x56, 0x80, 0x0F, 0x7C, 0xE0, 0x03, 0x1F, 0xF8, 0xC0, 0x07, 0x3E,
      0xF0, 0x81, 0x0F, 0x7C, 0x00, 0x00] := by
  decide

theorem encodeFrame_runSnapshot_disarming : encodeFrame (runSnapshot 172 172) =
    #v[0x0F, 0xE0, 0x03, 0x1F, 0x2B, 0x58, 0xC1, 0x0A, 0x56, 0x80, 0x0F, 0x7C, 0xE0, 0x03, 0x1F, 0xF8, 0xC0, 0x07, 0x3E,
      0xF0, 0x81, 0x0F, 0x7C, 0x00, 0x00] := by
  decide

theorem throttle_of_roles {c : Config} (h : c.roles = [0, 1, 2, 3, 4, 5]) : c.throttle = 2 := by
  simp_all [Config.roles]

theorem yaw_of_roles {c : Config} (h : c.roles = [0, 1, 2, 3, 4, 5]) : c.yaw = 3 := by
  simp_all [Config.roles]

/-! ### The rows that hold a value (R106, R107, R111 to R113) -/

theorem throttle_ne_yaw {c : Config} (h : c.Legal) : c.throttle ≠ c.yaw := by
  have := h.1
  simp_all [Config.roles]

/-- Settles O31. The two writes go to different channels, so their order does not matter. -/
theorem armingRowActs : Obligations.ArmingRowActs := by
  refine phaseRowActs_and_submits (p := .arming) _ encodeFrame_runSnapshot_arming (fun _ => rfl) (fun s hc _ k => ?_)
    (fun c _ hr => ?_)
  · have hne := throttle_ne_yaw hc
    rw [chan_actedBank_arming]
    by_cases hk : k = s.cfg.throttle
    · simp [hk, hne]
    · rw [if_neg hk, if_neg hk]
      split_ifs <;> rfl
  · simp only [throttle_of_roles hr, yaw_of_roles hr]
    decide

/-- Settles O32: yaw alone is written, so the throttle of the frame is the one held before. -/
theorem armedHoldRowActs : Obligations.ArmedHoldRowActs := by
  refine phaseRowActs_and_submits (p := .armedHold) _ encodeFrame_runSnapshot_neutral (fun _ => rfl) (fun s _ _ k => ?_)
    (fun c _ hr => ?_)
  · rw [chan_actedBank_armedHold]
    split_ifs <;> rfl
  · simp only [yaw_of_roles hr]
    decide

/-- Settles O36: throttle alone is written, so the yaw of the frame is the one held before. -/
theorem throttleFloorHoldRowActs : Obligations.ThrottleFloorHoldRowActs := by
  refine phaseRowActs_and_submits (p := .throttleFloorHold) _ encodeFrame_runSnapshot_neutral (fun _ => rfl)
    (fun s _ _ k => ?_) (fun c _ hr => ?_)
  · rw [chan_actedBank_throttleFloorHold]
    split_ifs <;> rfl
  · simp only [throttle_of_roles hr]
    decide

/-- Settles O37. Both writes are of one value, so their order does not matter. -/
theorem disarmingRowActs : Obligations.DisarmingRowActs := by
  refine phaseRowActs_and_submits (p := .disarming) _ encodeFrame_runSnapshot_disarming (fun _ => rfl)
    (fun s _ _ k => ?_) (fun c _ hr => ?_)
  · rw [chan_actedBank_disarming]
    split_ifs <;> rfl
  · simp only [throttle_of_roles hr, yaw_of_roles hr]
    decide

/-- Settles O38: yaw alone is written, and the next phase is Done. -/
theorem disarmedHoldRowActs : Obligations.DisarmedHoldRowActs := by
  refine phaseRowActs_and_submits (p := .disarmedHold) _ encodeFrame_runSnapshot_neutral (fun _ => rfl)
    (fun s _ _ k => ?_) (fun c _ hr => ?_)
  · rw [chan_actedBank_disarmedHold]
    split_ifs <;> rfl
  · simp only [yaw_of_roles hr]
    decide

/-! ### The two ramps (R108, R110; decision D9) -/

theorem rampUpValue_eq (n : Nat) : rampUpValue n = 172 + 5 * ((n / 5 : Nat) : Int) := rfl

theorem rampDownValue_eq (n : Nat) : rampDownValue n = 1400 - 5 * ((n / 5 : Nat) : Int) := rfl

/-- Settles O33: within a legal ramp no value is clamped, and no multiple of 5 is 1400 - 172, so 1400 is not met. -/
theorem throttleRampUpRowActs : Obligations.ThrottleRampUpRowActs := by
  refine ⟨phaseRowActs (p := .throttleRampUp) (fun c => Nat.mul_comm 5 c.rampN) fun s hc ht k => ?_,
    fun c hN => ?_, fun n hn => ?_, fun n h0 h1 => ?_, fun n _ => ⟨?_, ?_⟩⟩
  · have hdur := (phaseDur_bounds hc (p := .throttleRampUp) (by decide)).2
    rw [chan_actedBank_throttleRampUp s k (by omega)]
    split_ifs <;> rfl
  · rw [phaseDur, hN, rampHold]
  all_goals
    simp only [rampUpValue_eq]
    omega

/-- Settles O35: within a legal ramp no value is clamped, and no multiple of 5 is 1400 - 172, so 172 is not met. -/
theorem throttleRampDownRowActs : Obligations.ThrottleRampDownRowActs := by
  refine ⟨phaseRowActs (p := .throttleRampDown) (fun c => Nat.mul_comm 5 c.rampN) fun s hc ht k => ?_,
    fun c hN => ?_, fun n hn => ?_, fun n h0 h1 => ?_, fun n _ => ⟨?_, ?_⟩⟩
  · have hdur := (phaseDur_bounds hc (p := .throttleRampDown) (by decide)).2
    rw [chan_actedBank_throttleRampDown s k (by omega)]
    split_ifs <;> rfl
  · rw [phaseDur, hN, rampHold]
  all_goals
    simp only [rampDownValue_eq]
    omega

end Sys2Proof.Machine

/-! ## The exception TransportFailed (spec/60_exceptions.md R143) -/

namespace Sys2Proof.Machine

/-- Everything a TICK answered fail does to a running core: it writes the row's bank, drives the frame and raises
`fault` (R143). -/
theorem exec_tick_fail {s : State} (h : IsRunning s) :
    exec (.tick .fail) s = .next { s.latchAnswer .fail with
      ch := actedBank s.phase s
      out := .txFrame (actedFrame s.phase s)
      fault := true } := by
  rw [exec_tick_running h, iteration_fail s.phase (s.latchAnswer .fail) rfl]
  rfl

/-- The row's bank is the same on either answer. -/
theorem exec_tick_ch {s : State} (h : IsRunning s) (a : Answer) :
    ∃ t, exec (.tick a) s = .next t ∧ t.ch = actedBank s.phase s :=
  ⟨_, exec_tick_running h a, iteration_ch s.phase (s.latchAnswer a)⟩

theorem not_isRunning_of_fault {s : State} (h : s.fault = true) : ¬ IsRunning s :=
  (not_isRunning_iff s).2 (.inr (.inr h))

theorem faultSignal_of_fault {s : State} (h : s.fault = true) : s.faultSignal = s.cfg.faultTransport :=
  if_pos h

/-- Settles O48: `exec_tick_fail` gives the fields and `exec_tick_ch` the bank of the answer ok; with `fault` raised the
core is not running, so a later TICK is `exec_tick_idle`. -/
theorem transportFailedIsTakenPrecisely : Obligations.TransportFailedIsTakenPrecisely := by
  intro s hr
  obtain ⟨u, hu, hch⟩ := exec_tick_ch hr .ok
  exact ⟨_, exec_tick_fail hr, rfl, rfl, rfl, rfl, rfl, rfl, ⟨u, hu, hch.symm⟩, faultSignal_of_fault rfl,
    not_isRunning_of_fault rfl, exec_tick_idle (not_isRunning_of_fault rfl)⟩

end Sys2Proof.Machine

/-! ## RESET (spec/70_reset_and_hazards.md R160) -/

namespace Sys2Proof.Machine

/-- The word the pins present for RESET. -/
theorem cmdWord_reset : cmdWord 0xF 0 0 0 = 0xF0000000 := rfl

/-- RESET wins: it is taken alone and discards the other events of its instant (60_exceptions R149). -/
theorem words_of_rst {p : Pins} (h : p.rst = true) : p.words = [cmdWord 0xF 0 0 0] := if_pos h

@[simp] theorem present_events (s : State) (p : Pins) : (s.present p).events = s.events ++ p.words := rfl

/-- RESET answers the reset state, under the interface and the parameters it found. -/
theorem resetCore_eq_reset (s : State) :
    resetCore s = { State.reset with events := s.events, txFail := s.txFail, out := s.out, cfg := s.cfg } := rfl

/-- Settles O50: the word decodes to RESET under any parameters, its operation is `resetCore`, which leaves the reset
state under the interface it found, and the pins present the word alone. -/
theorem resetRestoresEveryField : Obligations.ResetRestoresEveryField := by
  refine ⟨fun c => ?_, fun s => ?_, fun s p hrst => ?_⟩
  · rw [← cmdWord_reset, decodeCmd_reset]
  · rw [exec_reset, resetCore_eq_reset]
  · rw [present_events, words_of_rst hrst, cmdWord_reset]

end Sys2Proof.Machine

/-! ## The encoding: decode and encode agree, and the decoder is the opcode table (spec/30_encoding.md R64 to R70) -/

namespace Sys2Proof

/-! ### The phase codes (10_state R25) -/

theorem encode_instr (p : Phase) : encode p.instr = .phase p.code := by
  cases p <;> rfl

theorem wellFormed_instr (c : Config) (p : Phase) : wellFormed c p.instr = true := by
  cases p <;> rfl

/-- A code names the phase whose place it is. -/
theorem code_of_phaseOfCode {c : PhaseCode} {p : Phase} (h : phaseOfCode c = some p) : c = p.code := by
  apply BitVec.eq_of_toNat_eq
  unfold phaseOfCode at h
  split at h
  case h_11 => cases h
  all_goals
    injection h with h
    subst h
    assumption

theorem decodePhase_eq_ok {c : PhaseCode} {i : Instr} :
    decodePhase c = .ok i ↔ ∃ p : Phase, c = p.code ∧ i = p.instr := by
  constructor
  · intro h
    cases hp : phaseOfCode c with
    | none => simp [decodePhase, hp] at h
    | some p =>
      simp only [decodePhase, hp] at h
      injection h with h
      exact ⟨p, code_of_phaseOfCode hp, h.symm⟩
  · rintro ⟨p, rfl, rfl⟩
    exact Machine.decodePhase_code p

/-! ### Operands (R65) -/

/-- An operand that fits the machine's width, at most that of its field, is the value of its field. -/
theorem toInt_ofInt_of_fits {w n : Nat} (hn : 0 < n) (hw : w ≤ n) {x : Int} (hx : fitsSigned w x = true) :
    (BitVec.ofInt n x).toInt = x := by
  obtain ⟨hlo, hhi⟩ := (fitsSigned_iff w x).1 hx
  have hpow : (2 : Int) ^ (w - 1) ≤ 2 ^ (n - 1) := pow_le_pow_right₀ (by decide) (by omega)
  exact BitVec.toInt_ofInt_eq_self hn (by omega) (by omega)

theorem decodeCmd_encoded_set {c : Config} (hi : c.idxW ≤ 8) (hr : c.rawW ≤ 16) {j v : Int}
    (hw : wellFormed c (.set j v) = true) :
    decodeCmd c (cmdWord 0x1 0 (BitVec.ofInt 8 j) (BitVec.ofInt 16 v)) = .ok (.set j v) := by
  obtain ⟨hj, hv⟩ : fitsSigned c.idxW j = true ∧ fitsSigned c.rawW v = true := by simpa [wellFormed] using hw
  rw [decodeCmd_set, toInt_ofInt_of_fits (by decide) hi hj, toInt_ofInt_of_fits (by decide) hr hv]
  exact admitOperands_eq_ok.2 ⟨rfl, hw⟩

theorem decodeCmd_encoded_get {c : Config} (hi : c.idxW ≤ 8) {j : Int} (hw : wellFormed c (.get j) = true) :
    decodeCmd c (cmdWord 0x2 0 (BitVec.ofInt 8 j) 0) = .ok (.get j) := by
  rw [decodeCmd_get, toInt_ofInt_of_fits (by decide) hi hw]
  exact admitOperands_eq_ok.2 ⟨rfl, hw⟩

theorem decodeCmd_encoded_tick (c : Config) (a : Answer) : decodeCmd c (cmdWord 0x6 0 0 a.dat) = .ok (.tick a) := by
  cases a
  · exact decodeCmd_tick_ok c
  · exact decodeCmd_tick_fail c

theorem decode_encode_instr (c : Config) (p : Phase) : decode c (encode p.instr) = .ok p.instr := by
  rw [encode_instr]
  exact Machine.decodePhase_code p

/-- Settles O1: an operation without an operand has one word, an operand that fits is the value of its field, and a row
of the phase table has its phase's code. -/
theorem decodeOfEncodeIsTheInstruction : Obligations.DecodeOfEncodeIsTheInstruction := by
  intro c i hi hr hw
  cases i with
  | nop => exact decodeCmd_nop c
  | set j v => exact decodeCmd_encoded_set hi hr hw
  | get j => exact decodeCmd_encoded_get hi hw
  | snapshot => exact decodeCmd_snapshot c
  | encode => exact decodeCmd_encode c
  | start => exact decodeCmd_start c
  | tick a => exact decodeCmd_encoded_tick c a
  | reset => exact decodeCmd_reset c
  | phaseNeutral => exact decode_encode_instr c .neutral
  | phaseArming => exact decode_encode_instr c .arming
  | phaseArmedHold => exact decode_encode_instr c .armedHold
  | phaseThrottleRampUp => exact decode_encode_instr c .throttleRampUp
  | phaseThrottleHold => exact decode_encode_instr c .throttleHold
  | phaseThrottleRampDown => exact decode_encode_instr c .throttleRampDown
  | phaseThrottleFloorHold => exact decode_encode_instr c .throttleFloorHold
  | phaseDisarming => exact decode_encode_instr c .disarming
  | phaseDisarmedHold => exact decode_encode_instr c .disarmedHold
  | phaseDone => exact decode_encode_instr c .done

/-! ### What each part of the decoder accepts -/

/-- A check of the decoder passes, and what stands behind it accepts. -/
theorem guard_eq_ok_iff {p : Prop} [Decidable p] {d : DecodeError} {r : Except DecodeError Instr} {i : Instr} :
    (if p then .error d else r) = .ok i ↔ ¬ p ∧ r = .ok i := by
  by_cases p <;> simp [*]

theorem decodePlain_eq_ok {w : CmdWord} {i j : Instr} :
    decodePlain w i = .ok j ↔ idxField w = 0 ∧ datField w = 0 ∧ i = j := by
  simp only [decodePlain, guard_eq_ok_iff, not_not, Except.ok.injEq]

/-- TICK takes its answer from the data (R67). -/
theorem decodeTick_eq_ok {w : CmdWord} {j : Instr} :
    decodeTick w = .ok j ↔ idxField w = 0 ∧ ∃ a : Answer, datField w = a.dat ∧ .tick a = j := by
  rw [decodeTick, guard_eq_ok_iff, not_not]
  refine and_congr_right fun _ => ⟨fun h => ?_, ?_⟩
  · split_ifs at h with h0 h1
    · exact ⟨.ok, h0, Except.ok.inj h⟩
    · exact ⟨.fail, h1, Except.ok.inj h⟩
  · rintro ⟨_ | _, ha, rfl⟩ <;> rw [ha] <;> rfl

theorem cmdWord_of_fields {w : CmdWord} {op z : BitVec 4} {idx : BitVec 8} {dat : BitVec 16} (hop : opField w = op)
    (hz : zField w = z) (hidx : idxField w = idx) (hdat : datField w = dat) : cmdWord op z idx dat = w := by
  subst hop hz hidx hdat
  exact cmdWord_fields w

/-- An operation without operands that decodes has the word of its code. -/
theorem encode_of_decodePlain {c : Config} {w : CmdWord} {i j : Instr} (op : BitVec 4) (hwf : wellFormed c i = true)
    (henc : encode i = .cmd (cmdWord op 0 0 0)) (hop : (opField w).toNat = op.toNat) (hz : zField w = 0)
    (h : decodePlain w i = .ok j) : wellFormed c j = true ∧ encode j = .cmd w := by
  obtain ⟨hidx, hdat, rfl⟩ := decodePlain_eq_ok.1 h
  rw [henc, cmdWord_of_fields (BitVec.eq_of_toNat_eq hop) hz hidx hdat]
  exact ⟨hwf, rfl⟩

/-- A CMD word that decodes is the word of an instruction the machine can be presented. -/
theorem encode_of_decodeCmd {c : Config} {w : CmdWord} {i : Instr} (h : decodeCmd c w = .ok i) :
    wellFormed c i = true ∧ encode i = .cmd w := by
  rw [decodeCmd, guard_eq_ok_iff, guard_eq_ok_iff, not_not] at h
  obtain ⟨hres, hz, h⟩ := h
  split at h
  case h_1 hop => exact encode_of_decodePlain 0x0 rfl rfl hop hz h
  case h_2 hop =>
    obtain ⟨rfl, hwf⟩ := admitOperands_eq_ok.1 h
    have hw := cmdWord_of_fields (op := 0x1) (BitVec.eq_of_toNat_eq hop) hz rfl rfl
    exact ⟨hwf, by rw [encode, BitVec.ofInt_toInt, BitVec.ofInt_toInt, hw]⟩
  case h_3 hop =>
    obtain ⟨hdat, h⟩ := guard_eq_ok_iff.1 h
    obtain ⟨rfl, hwf⟩ := admitOperands_eq_ok.1 h
    have hw := cmdWord_of_fields (op := 0x2) (BitVec.eq_of_toNat_eq hop) hz rfl (not_not.1 hdat)
    exact ⟨hwf, by rw [encode, BitVec.ofInt_toInt, hw]⟩
  case h_4 hop => exact encode_of_decodePlain 0x3 rfl rfl hop hz h
  case h_5 hop => exact encode_of_decodePlain 0x4 rfl rfl hop hz h
  case h_6 hop => exact encode_of_decodePlain 0x5 rfl rfl hop hz h
  case h_7 hop =>
    obtain ⟨hidx, a, hdat, rfl⟩ := decodeTick_eq_ok.1 h
    have hw := cmdWord_of_fields (op := 0x6) (BitVec.eq_of_toNat_eq hop) hz hidx hdat
    exact ⟨rfl, by rw [encode, hw]⟩
  case h_8 h0 h1 h2 h3 h4 h5 h6 =>
    have hop : (opField w).toNat = 15 := by
      have hlt := (opField w).isLt
      simp only [imp_false] at h0 h1 h2 h3 h4 h5 h6
      omega
    exact encode_of_decodePlain 0xF rfl rfl hop hz h

/-- Settles O2, by `encode_of_decodeCmd` and `decodePhase_eq_ok`. -/
theorem encodeOfDecodeIsTheWord : Obligations.EncodeOfDecodeIsTheWord := by
  intro c w i h
  cases w with
  | cmd w => exact encode_of_decodeCmd h
  | phase code =>
    obtain ⟨p, rfl, rfl⟩ := decodePhase_eq_ok.1 h
    exact ⟨wellFormed_instr c p, encode_instr p⟩

/-! ### The opcode table (R70) -/

/-- What a row's `match` and `mask` ask of the fields of a word. -/
theorem fields_of_accepts {r : TableRow 32} {w : CmdWord} (h : r.accepts w = true) :
    opField w &&& opField r.mask = opField r.pattern ∧ zField w &&& zField r.mask = zField r.pattern ∧
      idxField w &&& idxField r.mask = idxField r.pattern ∧ datField w &&& datField r.mask = datField r.pattern := by
  rw [← beq_iff_eq.1 h]
  exact ⟨BitVec.extractLsb'_and.symm, BitVec.extractLsb'_and.symm, BitVec.extractLsb'_and.symm,
    BitVec.extractLsb'_and.symm⟩

/-- Every row of the table fixes the operation field. -/
theorem opField_of_accepts {r : TableRow 32} (hr : r ∈ cmdRows) {w : CmdWord} (h : r.accepts w = true) :
    opField w = opField r.pattern := by
  have hmask : opField r.mask = BitVec.allOnes 4 := (by decide : ∀ r ∈ cmdRows, opField r.mask = BitVec.allOnes 4) r hr
  have hop := (fields_of_accepts h).1
  rwa [hmask, BitVec.and_allOnes] at hop

/-- No two rows have one operation. -/
theorem cmdRows_opField_inj : ∀ r ∈ cmdRows, ∀ q ∈ cmdRows, opField r.pattern = opField q.pattern → r = q := by
  decide

/-- Data with bits 15:1 equal to 0 are the data of an answer (R67). -/
theorem dat_of_masked {d : BitVec 16} (h : d &&& 0xFFFE = 0) : ∃ a : Answer, d = a.dat := by
  have hd : d = d &&& 1#16 := by
    calc
      d = d &&& (0xFFFE ||| 1#16) := (BitVec.and_allOnes (x := d)).symm
      _ = (d &&& 0xFFFE) ||| (d &&& 1#16) := BitVec.and_or_distrib_left
      _ = d &&& 1#16 := by rw [h]; exact BitVec.zero_or
  rw [BitVec.and_one_eq_setWidth_ofBool_getLsbD] at hd
  cases hb : d.getLsbD 0 with
  | false => exact ⟨.ok, hd.trans (by rw [hb]; rfl)⟩
  | true => exact ⟨.fail, hd.trans (by rw [hb]; rfl)⟩

/-- A row without operands accepts its `match` alone. -/
theorem eq_pattern_of_accepts {name : String} {p w : CmdWord} (h : (TableRow.mk name p 0xFFFFFFFF).accepts w = true) :
    w = p := by
  have hw : w &&& BitVec.allOnes 32 = p := beq_iff_eq.1 h
  rwa [BitVec.and_allOnes] at hw

theorem admitOperands_set {c : Config} (hi : c.idxW = 8) (hr : c.rawW = 16) (x : BitVec 8) (y : BitVec 16) :
    admitOperands c (.set x.toInt y.toInt) = .ok (.set x.toInt y.toInt) :=
  admitOperands_eq_ok.2 ⟨rfl, by simp [wellFormed, hi, hr, fitsSigned_toInt]⟩

theorem admitOperands_get {c : Config} (hi : c.idxW = 8) (x : BitVec 8) :
    admitOperands c (.get x.toInt) = .ok (.get x.toInt) :=
  admitOperands_eq_ok.2 ⟨rfl, by simp [wellFormed, hi, fitsSigned_toInt]⟩

/-- A word that a row accepts is decoded, with the widths of the fields, to an instruction of that row. -/
theorem decodeCmd_of_accepts {c : Config} (hi : c.idxW = 8) (hr : c.rawW = 16) {w : CmdWord} {r : TableRow 32}
    (hmem : r ∈ cmdRows) (h : r.accepts w = true) : ∃ i, decodeCmd c w = .ok i ∧ i.mnemonic = r.mnemonic := by
  obtain ⟨-, hz, hidx, hdat⟩ := fields_of_accepts h
  have hop := opField_of_accepts hmem h
  simp only [cmdRows, List.mem_cons, List.not_mem_nil, or_false] at hmem
  rcases hmem with rfl | rfl | rfl | rfl | rfl | rfl | rfl | rfl
  · exact ⟨.nop, by rw [eq_pattern_of_accepts h]; exact decodeCmd_nop c, rfl⟩
  · have hz : zField w = 0 := BitVec.and_allOnes.symm.trans hz
    refine ⟨.set (idxField w).toInt (datField w).toInt, ?_, rfl⟩
    calc
      decodeCmd c w = decodeCmd c (cmdWord 0x1 0 (idxField w) (datField w)) := by
        rw [cmdWord_of_fields (op := 0x1) hop hz rfl rfl]
      _ = _ := (decodeCmd_set c _ _).trans (admitOperands_set hi hr _ _)
  · have hz : zField w = 0 := BitVec.and_allOnes.symm.trans hz
    have hdat : datField w = 0 := BitVec.and_allOnes.symm.trans hdat
    refine ⟨.get (idxField w).toInt, ?_, rfl⟩
    calc
      decodeCmd c w = decodeCmd c (cmdWord 0x2 0 (idxField w) 0) := by
        rw [cmdWord_of_fields (op := 0x2) hop hz rfl hdat]
      _ = _ := (decodeCmd_get c _).trans (admitOperands_get hi _)
  · exact ⟨.snapshot, by rw [eq_pattern_of_accepts h]; exact decodeCmd_snapshot c, rfl⟩
  · exact ⟨.encode, by rw [eq_pattern_of_accepts h]; exact decodeCmd_encode c, rfl⟩
  · exact ⟨.start, by rw [eq_pattern_of_accepts h]; exact decodeCmd_start c, rfl⟩
  · have hz : zField w = 0 := BitVec.and_allOnes.symm.trans hz
    have hidx : idxField w = 0 := BitVec.and_allOnes.symm.trans hidx
    obtain ⟨a, hdat⟩ := dat_of_masked hdat
    refine ⟨.tick a, ?_, rfl⟩
    calc
      decodeCmd c w = decodeCmd c (cmdWord 0x6 0 0 a.dat) := by rw [cmdWord_of_fields (op := 0x6) hop hz hidx hdat]
      _ = _ := decodeCmd_encoded_tick c a
  · exact ⟨.reset, by rw [eq_pattern_of_accepts h]; exact decodeCmd_reset c, rfl⟩

/-- The encoder's word of any instruction belongs to the instruction's row. -/
theorem encodedWordOfRow (i : Instr) : Laws.EncodedWordOfRow.Statement i := by
  cases i with
  | nop => exact Laws.EncodedWordOfRow.nop
  | set j v => exact Laws.EncodedWordOfRow.set j v
  | get j => exact Laws.EncodedWordOfRow.get j
  | snapshot => exact Laws.EncodedWordOfRow.snapshot
  | encode => exact Laws.EncodedWordOfRow.encode
  | start => exact Laws.EncodedWordOfRow.start
  | tick a => exact Laws.EncodedWordOfRow.tick a
  | reset => exact Laws.EncodedWordOfRow.reset
  | phaseNeutral => exact Laws.EncodedWordOfRow.phaseNeutral
  | phaseArming => exact Laws.EncodedWordOfRow.phaseArming
  | phaseArmedHold => exact Laws.EncodedWordOfRow.phaseArmedHold
  | phaseThrottleRampUp => exact Laws.EncodedWordOfRow.phaseThrottleRampUp
  | phaseThrottleHold => exact Laws.EncodedWordOfRow.phaseThrottleHold
  | phaseThrottleRampDown => exact Laws.EncodedWordOfRow.phaseThrottleRampDown
  | phaseThrottleFloorHold => exact Laws.EncodedWordOfRow.phaseThrottleFloorHold
  | phaseDisarming => exact Laws.EncodedWordOfRow.phaseDisarming
  | phaseDisarmedHold => exact Laws.EncodedWordOfRow.phaseDisarmedHold
  | phaseDone => exact Laws.EncodedWordOfRow.phaseDone

/-- A word that decodes belongs to the row of its instruction, since it is the word the encoder writes. -/
theorem accepts_of_decodeCmd {c : Config} {w : CmdWord} {i : Instr} (h : decodeCmd c w = .ok i) :
    ∃ r ∈ cmdRows, r.accepts w = true ∧ r.mnemonic = i.mnemonic := by
  have hrow := encodedWordOfRow i
  rw [Laws.EncodedWordOfRow.Statement, (encode_of_decodeCmd h).2] at hrow
  obtain ⟨r, hr, hname, hacc⟩ := hrow
  exact ⟨r, hr, hacc, hname⟩

theorem mnemonic_instr_inj {p q : Phase} (h : p.instr.mnemonic = q.instr.mnemonic) : p = q := by
  cases p <;> cases q <;> simp_all [Phase.instr, Instr.mnemonic]

/-- The rows of format PHASE are the ten phases, each the row of its one code. -/
theorem phaseRow_eq : ∀ r ∈ phaseRows, ∃ p : Phase, r = ⟨p.instr.mnemonic, p.code, BitVec.allOnes 4⟩ := by
  simp only [phaseRows, List.forall_mem_cons, List.not_mem_nil, false_imp_iff, implies_true, and_true]
  exact ⟨⟨.neutral, rfl⟩, ⟨.arming, rfl⟩, ⟨.armedHold, rfl⟩, ⟨.throttleRampUp, rfl⟩, ⟨.throttleHold, rfl⟩,
    ⟨.throttleRampDown, rfl⟩, ⟨.throttleFloorHold, rfl⟩, ⟨.disarming, rfl⟩, ⟨.disarmedHold, rfl⟩, ⟨.done, rfl⟩⟩

theorem phaseRow_accepts_iff {code : PhaseCode} {r : TableRow 4} (hr : r ∈ phaseRows) :
    r.accepts code = true ↔ ∃ i, decodePhase code = .ok i ∧ i.mnemonic = r.mnemonic := by
  obtain ⟨p, rfl⟩ := phaseRow_eq r hr
  rw [TableRow.accepts, beq_iff_eq, BitVec.and_allOnes]
  constructor
  · rintro rfl
    exact ⟨p.instr, Machine.decodePhase_code p, rfl⟩
  · rintro ⟨i, hi, hname⟩
    obtain ⟨q, rfl, rfl⟩ := decodePhase_eq_ok.1 hi
    rw [mnemonic_instr_inj hname]

/-- Settles O4: a word that decodes is the encoder's, which its row accepts; two rows that accept one word have one
operation. -/
theorem decoderIsTheOpcodeTable : Obligations.DecoderIsTheOpcodeTable := by
  refine ⟨fun c w i h => accepts_of_decodeCmd h, fun c hi hr w r hmem h => decodeCmd_of_accepts hi hr hmem h,
    fun w r hr q hq hrw hqw => cmdRows_opField_inj r hr q hq ?_, fun code r hr => phaseRow_accepts_iff hr⟩
  rw [← opField_of_accepts hr hrw, opField_of_accepts hq hqw]

/-- Settles O5: the decoder computes each word. -/
theorem wordsOfTheSpecDecode : Obligations.WordsOfTheSpecDecode := by
  exact ⟨rfl, rfl, rfl, rfl, rfl, rfl, rfl, rfl, rfl, rfl, rfl, rfl, rfl, rfl⟩

/-! ### The operand widths (00_scope R8, R10) -/

theorem guard_bind {p : Prop} [Decidable p] (d : DecodeError) (r : Except DecodeError Instr)
    (f : Instr → Except DecodeError Instr) :
    (if p then .error d else r).bind f = if p then .error d else r.bind f := by
  by_cases p <;> simp [*, Except.bind]

theorem admitOperands_of_wellFormed {c : Config} {i : Instr} (h : wellFormed c i = true) : admitOperands c i = .ok i :=
  admitOperands_eq_ok.2 ⟨rfl, h⟩

theorem decodePlain_bind {c : Config} {i : Instr} (hi : wellFormed c i = true) (w : CmdWord) :
    (decodePlain w i).bind (admitOperands c) = decodePlain w i := by
  rw [decodePlain, guard_bind, guard_bind, Except.bind, admitOperands_of_wellFormed hi]

theorem decodeTick_bind (c : Config) (w : CmdWord) : (decodeTick w).bind (admitOperands c) = decodeTick w := by
  rw [decodeTick, guard_bind]
  split_ifs <;> rfl

/-- The parameters bear on the decoder through the widths alone: what the widths of the fields let pass, narrower widths
let pass or reject. -/
theorem decodeCmd_eq_bind (c : Config) (w : CmdWord) :
    decodeCmd c w = (decodeCmd Config.default w).bind (admitOperands c) := by
  simp only [decodeCmd, guard_bind, admitOperands_set (c := Config.default) rfl rfl,
    admitOperands_get (c := Config.default) rfl]
  refine if_congr Iff.rfl rfl (if_congr Iff.rfl rfl ?_)
  split
  case h_2 => rfl
  case h_3 =>
    rw [guard_bind]
    rfl
  case h_7 => exact (decodeTick_bind c w).symm
  all_goals exact (decodePlain_bind rfl w).symm

theorem decodeCmd_eq_ok_iff {c : Config} {w : CmdWord} {i : Instr} :
    decodeCmd c w = .ok i ↔ decodeCmd Config.default w = .ok i ∧ wellFormed c i = true := by
  rw [decodeCmd_eq_bind c w]
  cases decodeCmd Config.default w with
  | error e => simp [Except.bind]
  | ok j =>
    rw [Except.bind, admitOperands_eq_ok, Except.ok.injEq]
    exact and_congr_right fun h => by rw [h]

end Sys2Proof

/-! ## What no operation depends on, and what none changes: the interface, the parameters (spec/10_state.md R20, R31,
R32, spec/00_scope.md R8, R10) -/

namespace Sys2Proof.Machine

/-! ### The parameters and the pending events stay -/

@[simp] theorem iteration_cfg (p : Phase) (s : State) : (iteration p s).cfg = s.cfg := by
  obtain ⟨-, h⟩ | ⟨-, -, h⟩ | ⟨-, -, h⟩ := iteration_cases p s <;> rw [h]

@[simp] theorem iteration_events (p : Phase) (s : State) : (iteration p s).events = s.events := by
  obtain ⟨-, h⟩ | ⟨-, -, h⟩ | ⟨-, -, h⟩ := iteration_cases p s <;> rw [h]

/-- Settles O47: of the outcomes of an operation only an iteration is no plain update, and it leaves both. -/
theorem noOperationChangesTheParameters : Obligations.NoOperationChangesTheParameters := by
  intro i s t h
  obtain rfl | ⟨j, v, -, -, rfl⟩ | ⟨-, o, rfl⟩ | ⟨-, -, rfl⟩ | ⟨-, rfl⟩ | ⟨a, -, -, rfl⟩ | ⟨-, -, rfl⟩ :=
    exec_next_cases h
  · exact ⟨rfl, rfl⟩
  · exact ⟨rfl, rfl⟩
  · exact ⟨rfl, rfl⟩
  · exact ⟨rfl, rfl⟩
  · exact ⟨rfl, rfl⟩
  · exact ⟨iteration_cfg _ _, iteration_events _ _⟩
  · exact ⟨iteration_cfg _ _, iteration_events _ _⟩

/-! ### Neither the interface nor the operand widths are read -/

/-- A state under another interface and other operand widths. -/
def State.reframed (s : State) (io : Interface) (m n : Nat) : State :=
  { s with toInterface := io, cfg := { s.cfg with idxW := m, rawW := n } }

/-- The second result is the first one under other widths and another interface, the first one's interface if `same`. -/
def ResultsAlike (m n : Nat) (same : Prop) (r q : Result) : Prop :=
  match r with
  | .next t => ∃ io, q = .next (t.reframed io m n) ∧ (same → io = t.toInterface)
  | .refused e => q = .refused e
  | .fault f => q = .fault f

section reframed
variable (s : State) (io : Interface) (m n : Nat)

theorem actedBank_reframed (p : Phase) : actedBank p (s.reframed io m n) = actedBank p s := by
  cases p <;> rfl

theorem actedFrame_reframed (p : Phase) : actedFrame p (s.reframed io m n) = actedFrame p s := by
  rw [actedFrame, actedBank_reframed, actedFrame]

/-- An iteration reads of the interface the transport's answer alone. -/
theorem iteration_reframed (p : Phase) (h : io.txFail = s.txFail) :
    iteration p (s.reframed io m n) = (iteration p s).reframed { io with out := .txFrame (actedFrame p s) } m n := by
  have hdur : phaseDur (s.reframed io m n).cfg p = phaseDur s.cfg p := by cases p <;> rfl
  have hled (k : Nat) (b : Bool) : ledAfter (s.reframed io m n).cfg p k b = ledAfter s.cfg p k b := by cases p <;> rfl
  obtain ⟨ha, hs⟩ | ⟨ha, hn, hs⟩ | ⟨ha, hn, hs⟩ := iteration_cases p s
  · rw [hs, iteration_fail p (s.reframed io m n) (h.trans ha), actedBank_reframed, actedFrame_reframed]
    rfl
  · rw [hs, iteration_ok_stay p (s.reframed io m n) (h.trans ha) (hdur ▸ hn), actedBank_reframed, actedFrame_reframed,
      hled]
    rfl
  · rw [hs, iteration_ok_last p (s.reframed io m n) (h.trans ha) (hdur ▸ hn), actedBank_reframed, actedFrame_reframed,
      hled]
    rfl

theorem iteration_reframed_interface (p : Phase) (h : io = s.toInterface) :
    { io with out := .txFrame (actedFrame p s) } = (iteration p s).toInterface := by
  subst h
  obtain ⟨-, hs⟩ | ⟨-, -, hs⟩ | ⟨-, -, hs⟩ := iteration_cases p s <;> rw [hs]

theorem exec_row_reframed (p : Phase) (h : io.txFail = s.txFail) :
    ResultsAlike m n (io = s.toInterface) (exec p.instr s) (exec p.instr (s.reframed io m n)) := by
  rw [exec_row, exec_row]
  by_cases hp : IsRunning s ∧ s.phase = p
  · rw [rowTick_selected hp.1 hp.2, rowTick_selected (s := s.reframed io m n) hp.1 hp.2,
      iteration_reframed s io m n p h]
    exact ⟨_, rfl, iteration_reframed_interface s io p⟩
  · rw [rowTick_other hp, rowTick_other (s := s.reframed io m n) hp]
    exact ⟨io, rfl, id⟩

/-- A TICK brings its own answer. -/
theorem exec_tick_reframed (a : Answer) :
    ResultsAlike m n (io = s.toInterface) (exec (.tick a) s) (exec (.tick a) (s.reframed io m n)) := by
  by_cases hr : IsRunning s
  · rw [exec_tick_running hr, exec_tick_running (s := s.reframed io m n) hr]
    refine ⟨_, congrArg _ (iteration_reframed (s.latchAnswer a) { io with txFail := decide (a = .fail) } m n s.phase
      rfl), fun h => iteration_reframed_interface (s.latchAnswer a) _ s.phase ?_⟩
    rw [h]
    rfl
  · rw [exec_tick_idle hr, exec_tick_idle (s := s.reframed io m n) hr]
    exact ⟨io, rfl, id⟩

theorem exec_set_reframed (j v : Int) :
    ResultsAlike m n (io = s.toInterface) (exec (.set j v) s) (exec (.set j v) (s.reframed io m n)) := by
  by_cases hr : IsRunning s
  · rw [exec_set_running hr, exec_set_running (s := s.reframed io m n) hr]
    rfl
  · rw [exec_set_idle hr, exec_set_idle (s := s.reframed io m n) hr]
    exact ⟨io, rfl, id⟩

/-- A read drives what it read, whatever was driven before. -/
theorem resultsAlike_drive (o : Output) :
    ResultsAlike m n (io = s.toInterface) (.next (s.drive o)) (.next ((s.reframed io m n).drive o)) :=
  ⟨{ io with out := o }, rfl, fun h => h ▸ rfl⟩

theorem exec_get_reframed (j : Int) :
    ResultsAlike m n (io = s.toInterface) (exec (.get j) s) (exec (.get j) (s.reframed io m n)) := by
  cases hk : chanIndex j with
  | none =>
    rw [exec_get_out _ (chanIndex_eq_none.1 hk), exec_get_out _ (chanIndex_eq_none.1 hk)]
    rfl
  | some k =>
    rw [← chanIndex_eq_some.1 hk, exec_get_mem, exec_get_mem]
    exact resultsAlike_drive s io m n _

theorem exec_start_reframed :
    ResultsAlike m n (io = s.toInterface) (exec .start s) (exec .start (s.reframed io m n)) := by
  cases hs : s.started with
  | true =>
    rw [exec_start_started hs, exec_start_started (s := s.reframed io m n) hs]
    rfl
  | false =>
    rw [exec_start_idle hs, exec_start_idle (s := s.reframed io m n) hs]
    exact ⟨io, rfl, id⟩

/-- NO OPERATION READS THE OPERAND WIDTHS, and of the interface only the rows of the phase table read the transport's
answer: under others the answer is the same but for them (00_scope R10, 10_state R31, R32). -/
theorem exec_reframed (i : Instr) (h : io.txFail = s.txFail ∨ ∀ p : Phase, i ≠ p.instr) :
    ResultsAlike m n (io = s.toInterface) (exec i s) (exec i (s.reframed io m n)) := by
  have row (p : Phase) (hi : i = p.instr) :
      ResultsAlike m n (io = s.toInterface) (exec i s) (exec i (s.reframed io m n)) := by
    rw [hi]
    exact exec_row_reframed s io m n p (h.resolve_right fun hne => hne p hi)
  cases i with
  | nop => exact ⟨io, rfl, id⟩
  | set j v => exact exec_set_reframed s io m n j v
  | get j => exact exec_get_reframed s io m n j
  | snapshot => exact resultsAlike_drive s io m n _
  | encode => exact resultsAlike_drive s io m n _
  | start => exact exec_start_reframed s io m n
  | tick a => exact exec_tick_reframed s io m n a
  | reset => exact ⟨io, rfl, id⟩
  | phaseNeutral => exact row .neutral rfl
  | phaseArming => exact row .arming rfl
  | phaseArmedHold => exact row .armedHold rfl
  | phaseThrottleRampUp => exact row .throttleRampUp rfl
  | phaseThrottleHold => exact row .throttleHold rfl
  | phaseThrottleRampDown => exact row .throttleRampDown rfl
  | phaseThrottleFloorHold => exact row .throttleFloorHold rfl
  | phaseDisarming => exact row .disarming rfl
  | phaseDisarmedHold => exact row .disarmedHold rfl
  | phaseDone => exact row .done rfl

end reframed

theorem exec_withInterface {i : Instr} {s t : State} {io : Interface}
    (hio : io.txFail = s.txFail ∨ ∀ p : Phase, i ≠ p.instr) (h : exec i s = .next t) :
    ∃ u, exec i { s with toInterface := io } = .next u ∧ u.toCoreState = t.toCoreState ∧ u.cfg = t.cfg := by
  have hcfg := (noOperationChangesTheParameters i s t h).1
  have hsame := exec_reframed s io s.cfg.idxW s.cfg.rawW i hio
  rw [h] at hsame
  obtain ⟨io', hu, -⟩ := hsame
  refine ⟨_, hu, rfl, ?_⟩
  rw [State.reframed, hcfg]

/-- No event decodes to a row of the phase table. -/
theorem decodeCmd_ne_row {c : Config} {w : CmdWord} {i : Instr} (h : decodeCmd c w = .ok i) (p : Phase) :
    i ≠ p.instr := by
  rintro rfl
  have henc := (encode_of_decodeCmd h).2
  rw [encode_instr] at henc
  cases henc

/-- Settles O46, by `exec_reframed` with the widths left as they are; no event is a row, so a step reads of it
the event alone. -/
theorem theInterfaceIsNoState : Obligations.TheInterfaceIsNoState := by
  refine ⟨fun i s io hio => ⟨fun t h => exec_withInterface hio h, fun r h => ?_⟩,
    fun s t io w rest rest' he heio h => ?_⟩
  · have hsame := exec_reframed s io s.cfg.idxW s.cfg.rawW i hio
    rw [h] at hsame
    exact hsame
  · obtain ⟨he', -⟩ | ⟨w', rest₁, i, he', hd, hi⟩ := step_next_cases h
    · rw [he] at he'
      cases he'
    · obtain ⟨rfl, rfl⟩ := List.cons.inj (he.symm.trans he')
      rw [step_event (s := { s with toInterface := io }) heio hd]
      exact exec_withInterface (s := { s with events := rest, out := .idle })
        (io := { io with events := rest', out := .idle }) (.inr (decodeCmd_ne_row hd)) hi

theorem exec_withWidths (i : Instr) (s : State) (m n : Nat) :
    ResultsAlike m n True (exec i s) (exec i { s with cfg := { s.cfg with idxW := m, rawW := n } }) := by
  have hsame := exec_reframed s s.toInterface m n i (.inl rfl)
  rw [eq_self_iff_true] at hsame
  exact hsame

theorem fitsSigned_idx (x : Int) : fitsSigned Config.default.idxW x = true ↔ -128 ≤ x ∧ x ≤ 127 := by
  rw [fitsSigned_iff]
  change -128 ≤ x ∧ x < 128 ↔ _
  omega

theorem fitsSigned_raw (x : Int) : fitsSigned Config.default.rawW x = true ↔ -32768 ≤ x ∧ x ≤ 32767 := by
  rw [fitsSigned_iff]
  change -32768 ≤ x ∧ x < 32768 ↔ _
  omega

/-- Settles O6: the decoder by `decodeCmd_eq_bind`, the operations by `exec_reframed` under the same interface. -/
theorem operandWidthsOnlyLimitWhatIsPresented : Obligations.OperandWidthsOnlyLimitWhatIsPresented := by
  refine ⟨fun c w i => decodeCmd_eq_ok_iff, fun c w i hd hw => ?_, fun i v => ?_, fun i => ?_,
    fun i s m n => ⟨fun t h => ?_, fun r h => ?_⟩⟩
  · rw [decodeCmd_eq_bind c w, hd]
    exact admitOperands_of_not hw
  · simp only [wellFormed, Bool.and_eq_true, fitsSigned_idx, fitsSigned_raw, and_assoc]
  · exact fitsSigned_idx i
  · have hsame := exec_withWidths i s m n
    rw [h] at hsame
    obtain ⟨io, hu, hio⟩ := hsame
    rw [hu, hio trivial, State.reframed, (noOperationChangesTheParameters i s t h).1]
  · have hsame := exec_withWidths i s m n
    rw [h] at hsame
    exact hsame

end Sys2Proof.Machine

/-! ## The invariants of every step (spec/10_state.md R22, R26, R27, R35, spec/30_encoding.md R61, R69,
spec/70_reset_and_hazards.md R169) -/

namespace Sys2Proof.Machine

/-- What every operation keeps, every step keeps, when taking the event keeps it too. -/
theorem step_keeps {P : State → Prop}
    (htake : ∀ (s : State) (rest : List CmdWord), P s → P { s with events := rest, out := .idle })
    (hexec : ∀ (i : Instr) (s t : State), P s → exec i s = .next t → P t) {s t : State} (hs : P s)
    (h : step s = .next t) : P t := by
  obtain ⟨-, rfl⟩ | ⟨w, rest, i, -, -, hi⟩ := step_next_cases h
  · exact hs
  · exact hexec i _ t (htake s rest hs) hi

/-! ### The run state and the position -/

/-- The configuration, the run state and the position are legal: what the other invariants stand on. -/
structure CoreLegal (s : State) : Prop where
  cfg : s.cfg.Legal
  run : RunStateLegal s
  position : PositionLegal s

/-- Before START the core is idle. -/
theorem idle_of_not_started {s : State} (h : RunStateLegal s) (hs : s.started = false) :
    s.fault = false ∧ s.phase = .neutral ∧ s.t = 0 := by
  obtain ⟨-, hidle⟩ | ⟨h, -⟩ | ⟨h, -⟩ | ⟨h, -⟩ := h
  · exact hidle
  all_goals exact absurd (hs.symm.trans h) (by decide)

/-- Within a phase the count does not wrap: the durations of a legal configuration fit `t`. -/
theorem toNat_ofNat_of_lt_phaseDur {c : Config} (hc : c.Legal) {p : Phase} (hp : p ≠ .done) {n : Nat}
    (hn : n < phaseDur c p) : (BitVec.ofNat 11 n).toNat = n := by
  have hdur := (phaseDur_bounds hc hp).2
  rw [BitVec.toNat_ofNat]
  omega

/-- The next position of a legal one is legal. -/
theorem positionLegal_iteration {s : State} (hc : s.cfg.Legal) (hpos : PositionLegal s) (hp : s.phase ≠ .done) :
    PositionLegal (iteration s.phase s) := by
  obtain ⟨-, h⟩ | ⟨-, hn, h⟩ | ⟨-, -, h⟩ := iteration_cases s.phase s <;> rw [h]
  · exact hpos
  · exact ⟨fun _ => lt_of_eq_of_lt (toNat_ofNat_of_lt_phaseDur hc hp hn) hn, fun hd => absurd hd hp⟩
  · exact ⟨fun hn => (phaseDur_bounds hc hn).1, fun _ => rfl⟩

/-- An iteration aborts the run, goes on with it, or finishes it. -/
theorem runStateLegal_iteration {s : State} (hr : IsRunning s) : RunStateLegal (iteration s.phase s) := by
  obtain ⟨hs, hf, hp⟩ := hr
  obtain ⟨-, h⟩ | ⟨-, -, h⟩ | ⟨-, -, h⟩ := iteration_cases s.phase s <;> rw [h]
  · exact .inr (.inr (.inr ⟨hs, rfl, hp⟩))
  · exact .inr (.inl ⟨hs, hf, hp⟩)
  · by_cases hd : nextPhase s.phase = .done
    · exact .inr (.inr (.inl ⟨hs, hf, hd⟩))
    · exact .inr (.inl ⟨hs, hf, hd⟩)

theorem coreLegal_iteration {s : State} (hs : CoreLegal s) (hr : IsRunning s) : CoreLegal (iteration s.phase s) where
  cfg := by rw [iteration_cfg]; exact hs.cfg
  run := runStateLegal_iteration hr
  position := positionLegal_iteration hs.cfg hs.position hr.2.2

theorem coreLegal_markStarted {s : State} (hs : CoreLegal s) (hst : s.started = false) : CoreLegal s.markStarted := by
  obtain ⟨hf, hp, -⟩ := idle_of_not_started hs.run hst
  exact ⟨hs.cfg, .inr (.inl ⟨rfl, hf, by rw [markStarted_phase, hp]; decide⟩), hs.position⟩

theorem coreLegal_resetCore {s : State} (hc : s.cfg.Legal) : CoreLegal (resetCore s) :=
  ⟨hc, .inl ⟨rfl, rfl, rfl, rfl⟩, ⟨fun _ => (phaseDur_bounds hc (p := .neutral) (by decide)).1, fun _ => rfl⟩⟩

theorem exec_keeps_coreLegal (i : Instr) (s t : State) (hs : CoreLegal s) (h : exec i s = .next t) : CoreLegal t := by
  obtain rfl | ⟨j, v, -, -, rfl⟩ | ⟨-, o, rfl⟩ | ⟨-, hst, rfl⟩ | ⟨-, rfl⟩ | ⟨a, -, hr, rfl⟩ | ⟨-, hr, rfl⟩ :=
    exec_next_cases h
  · exact hs
  · exact ⟨hs.cfg, hs.run, hs.position⟩
  · exact ⟨hs.cfg, hs.run, hs.position⟩
  · exact coreLegal_markStarted hs hst
  · exact coreLegal_resetCore hs.cfg
  · exact coreLegal_iteration (s := s.latchAnswer a) ⟨hs.cfg, hs.run, hs.position⟩ hr
  · exact coreLegal_iteration hs hr

theorem coreLegal_take (s : State) (rest : List CmdWord) (hs : CoreLegal s) :
    CoreLegal { s with events := rest, out := .idle } :=
  ⟨hs.cfg, hs.run, hs.position⟩

/-- Settles O54, by `exec_keeps_coreLegal`. -/
theorem everyStepKeepsRunStateAndPositionLegal : Obligations.EveryStepKeepsRunStateAndPositionLegal := by
  intro s t hc hrun hpos h
  obtain ⟨hc', hrun', hpos'⟩ := step_keeps coreLegal_take exec_keeps_coreLegal ⟨hc, hrun, hpos⟩ h
  exact ⟨hc', hrun', hpos'⟩

/-- Over legal states, what every operation keeps, every step keeps. -/
theorem step_keeps_of_coreLegal {P : State → Prop}
    (htake : ∀ (s : State) (rest : List CmdWord), P s → P { s with events := rest, out := .idle })
    (hexec : ∀ (i : Instr) (s t : State), CoreLegal s → P s → exec i s = .next t → P t) {s t : State}
    (hs : CoreLegal s) (hp : P s) (h : step s = .next t) : P t :=
  (step_keeps (P := fun s => CoreLegal s ∧ P s) (fun s rest hs => ⟨coreLegal_take s rest hs.1, htake s rest hs.2⟩)
    (fun i s t hs hi => ⟨exec_keeps_coreLegal i s t hs.1 hi, hexec i s t hs.1 hs.2 hi⟩) ⟨hs, hp⟩ h).2

/-! ### The wire -/

/-- The frame of a bank in range is one the core can emit. -/
theorem frameLegal_of_bankInRange {b : Bank} (h : BankInRange b) : FrameLegal (encodeFrame (snapshotOf b)) := by
  obtain ⟨h0, h23, h24⟩ := encodeFrame_fixedBytes (snapshotOf b)
  refine ⟨h0, h23, h24, fun k => ?_⟩
  rw [unpackField_snapshotOf]
  exact bankInRange_toNat h k

/-- An iteration puts at most its own frame on the wire. -/
theorem mem_iteration_wire {p : Phase} {s : State} {f : Frame} (h : f ∈ (iteration p s).wire) :
    f ∈ s.wire ∨ f = actedFrame p s := by
  rw [iteration_wire] at h
  split_ifs at h
  · exact .inl h
  · exact (List.mem_append.1 h).imp_right List.mem_singleton.1

theorem wireLegal_iteration (p : Phase) {s : State} (hb : BankInRange s.ch) (hw : WireLegal s) :
    WireLegal (iteration p s) := by
  intro f hf
  obtain hf | rfl := mem_iteration_wire hf
  · exact hw f hf
  · exact frameLegal_of_bankInRange (bankInRange_actedBank p hb)

theorem exec_keeps_wireLegal {i : Instr} {s t : State} (hb : BankInRange s.ch) (hw : WireLegal s)
    (h : exec i s = .next t) : WireLegal t := by
  obtain rfl | ⟨j, v, -, -, rfl⟩ | ⟨-, o, rfl⟩ | ⟨-, -, rfl⟩ | ⟨-, rfl⟩ | ⟨a, -, -, rfl⟩ | ⟨-, -, rfl⟩ :=
    exec_next_cases h
  · exact hw
  · exact hw
  · exact hw
  · exact hw
  · exact fun f hf => absurd hf List.not_mem_nil
  · exact wireLegal_iteration (s := s.latchAnswer a) s.phase hb hw
  · exact wireLegal_iteration s.phase hb hw

/-- Settles O55: a frame goes on the wire only from a bank in range, and every operation keeps the range. -/
theorem everyStepKeepsTheWireLegal : Obligations.EveryStepKeepsTheWireLegal := by
  intro s t hb hw h
  exact step_keeps (P := fun s => BankInRange s.ch ∧ WireLegal s) (fun _ _ hs => hs)
    (fun _ _ _ hs hi => ⟨exec_keeps_bankInRange hs.1 hi, exec_keeps_wireLegal hs.1 hs.2 hi⟩) ⟨hb, hw⟩ h

/-! ### The throttle -/

theorem unpackField_actedFrame (p : Phase) (s : State) (k : Fin 16) :
    (unpackField (actedFrame p s) k.val : Int) = chan (actedBank p s) k := by
  rw [actedFrame, unpackField_snapshotOf, chan_eq]

/-- Neutral writes all six role channels. -/
theorem rolesAfter_actedBank_neutral {s : State} (hc : s.cfg.Legal) (n : Nat) :
    RolesAfter s.cfg (actedBank .neutral s) .neutral n := by
  have hroles := hc.1
  simp only [Config.roles, List.nodup_cons, List.mem_cons, List.not_mem_nil, or_false, not_or] at hroles
  simp [RolesAfter, chan_actedBank_neutral, runThrottle, runYaw, hroles]

/-- The rows that leave the throttle as they find it. -/
def KeepsThrottle (p : Phase) : Prop := p = .armedHold ∨ p = .disarmedHold

theorem throttle_actedBank_of_keeps {s : State} (hc : s.cfg.Legal) {p : Phase} (h : KeepsThrottle p) :
    chan (actedBank p s) s.cfg.throttle = chan s.ch s.cfg.throttle := by
  have hne := throttle_ne_yaw hc
  obtain rfl | rfl := h
  · rw [chan_actedBank_armedHold, if_neg hne]
  · rw [chan_actedBank_disarmedHold, if_neg hne]

/-- The other rows write the throttle the table of 10_state R35 gives. -/
theorem throttle_actedBank {s : State} (hc : s.cfg.Legal) {p : Phase} (ht : s.t.toNat < phaseDur s.cfg p)
    (h : ¬ KeepsThrottle p) : chan (actedBank p s) s.cfg.throttle = runThrottle p s.t.toNat := by
  have hne := throttle_ne_yaw hc
  cases p with
  | neutral =>
    obtain ⟨-, -, hthr, -⟩ := rolesAfter_actedBank_neutral hc s.t.toNat
    exact hthr
  | arming => rw [chan_actedBank_arming, if_neg hne, if_pos rfl]; rfl
  | armedHold => exact absurd (.inl rfl) h
  | throttleRampUp =>
    have hdur := (phaseDur_bounds hc (p := .throttleRampUp) (by decide)).2
    rw [chan_actedBank_throttleRampUp s _ (by omega), if_pos rfl]
    rfl
  | throttleHold => rw [chan_actedBank_throttleHold, if_pos rfl]; rfl
  | throttleRampDown =>
    have hdur := (phaseDur_bounds hc (p := .throttleRampDown) (by decide)).2
    rw [chan_actedBank_throttleRampDown s _ (by omega), if_pos rfl]
    rfl
  | throttleFloorHold => rw [chan_actedBank_throttleFloorHold, if_pos rfl]; rfl
  | disarming => rw [chan_actedBank_disarming, if_neg hne, if_pos rfl]; rfl
  | disarmedHold => exact absurd (.inr rfl) h
  | done => exact absurd ht (Nat.not_lt_zero _)

/-- The table's throttle stays between the ends of the ramps. -/
theorem runThrottle_le {c : Config} (hc : c.Legal) {p : Phase} {n : Nat} (hn : n < phaseDur c p) :
    runThrottle p n ≤ 1400 := by
  obtain ⟨-, -, hramp, -⟩ := hc
  cases p
  case throttleRampUp =>
    rw [phaseDur, rampHold] at hn
    rw [runThrottle]
    omega
  case throttleRampDown =>
    rw [runThrottle]
    omega
  all_goals simp [runThrottle]

/-- Past the first tick the row leaves a throttle up to 1400, written or kept; the first tick writes it. -/
theorem throttle_actedBank_le {s : State} (hs : CoreLegal s) (hr : IsRunning s)
    (hthr : (s.phase ≠ .neutral ∨ s.t ≠ 0) → chan s.ch s.cfg.throttle ≤ 1400) :
    chan (actedBank s.phase s) s.cfg.throttle ≤ 1400 := by
  by_cases hk : KeepsThrottle s.phase
  · rw [throttle_actedBank_of_keeps hs.cfg hk]
    exact hthr (.inl fun hp => absurd hk (by simp [KeepsThrottle, hp]))
  · have ht := hs.position.1 hr.2.2
    rw [throttle_actedBank hs.cfg ht hk]
    exact runThrottle_le hs.cfg ht

theorem throttleBounded_iteration {s : State} (hs : CoreLegal s) (hr : IsRunning s) (hb : ThrottleBounded s) :
    ThrottleBounded (iteration s.phase s) := by
  have hbank := throttle_actedBank_le hs hr (hb.2 hr)
  refine ⟨fun f hf => ?_, fun _ _ => ?_⟩
  · rw [iteration_cfg]
    obtain hf | rfl := mem_iteration_wire hf
    · exact hb.1 f hf
    · have := unpackField_actedFrame s.phase s s.cfg.throttle
      omega
  · rw [iteration_ch, iteration_cfg]
    exact hbank

/-- Only a core that is not running takes SET, and START begins at the first tick, so neither meets the register's
bound. -/
theorem exec_keeps_throttleBounded {i : Instr} {s t : State} (hs : CoreLegal s) (hb : ThrottleBounded s)
    (h : exec i s = .next t) : ThrottleBounded t := by
  obtain rfl | ⟨j, v, -, hn, rfl⟩ | ⟨-, o, rfl⟩ | ⟨-, hst, rfl⟩ | ⟨-, rfl⟩ | ⟨a, -, hr, rfl⟩ | ⟨-, hr, rfl⟩ :=
    exec_next_cases h
  · exact hb
  · exact ⟨hb.1, fun hr => absurd hr hn⟩
  · exact hb
  · obtain ⟨-, hp, ht⟩ := idle_of_not_started hs.run hst
    exact ⟨hb.1, fun _ hpast => absurd hpast (by simp [hp, ht])⟩
  · exact ⟨fun f hf => absurd hf List.not_mem_nil, fun hr => absurd hr.1 Bool.false_ne_true⟩
  · exact throttleBounded_iteration (s := s.latchAnswer a) ⟨hs.cfg, hs.run, hs.position⟩ hr hb
  · exact throttleBounded_iteration hs hr hb

/-- Settles O56, by `exec_keeps_throttleBounded` over legal states. -/
theorem everyStepKeepsTheThrottleBounded : Obligations.EveryStepKeepsTheThrottleBounded := by
  intro s t hc hrun hpos hb h
  exact step_keeps_of_coreLegal (P := ThrottleBounded) (fun _ _ hs => hs) (fun _ _ _ => exec_keeps_throttleBounded)
    ⟨hc, hrun, hpos⟩ hb h

/-! ### The bank as a function of the position -/

/-- The role channels are those of the tick before the position, running or not (10_state R35). -/
def BankFollowsPosition (s : State) : Prop :=
  ∀ q ∈ lastPosition s.cfg s.phase s.t.toNat, RolesAfter s.cfg s.ch q.1 q.2

theorem lastPosition_succ (c : Config) (p : Phase) (n : Nat) : lastPosition c p (n + 1) = some (p, n) :=
  if_pos n.succ_pos

/-- The tick before the first one of a phase is the last one of the phase before. -/
theorem lastPosition_nextPhase (c : Config) {p : Phase} (hp : p ≠ .done) :
    lastPosition c (nextPhase p) 0 = some (p, phaseDur c p - 1) := by
  have hramp : 5 * c.rampN = c.rampN * rampHold := Nat.mul_comm ..
  cases p
  case done => exact absurd rfl hp
  all_goals simp [lastPosition, nextPhase, phaseDur, hramp]

/-- After an iteration answered ok, the tick before the position is the one just performed. -/
theorem lastPosition_iteration {s : State} (hc : s.cfg.Legal) (hpos : PositionLegal s) (hp : s.phase ≠ .done)
    (ha : s.txFail = false) :
    lastPosition s.cfg (iteration s.phase s).phase (iteration s.phase s).t.toNat = some (s.phase, s.t.toNat) := by
  have ht := hpos.1 hp
  by_cases hn : s.t.toNat + 1 < phaseDur s.cfg s.phase
  · rw [iteration_ok_stay s.phase s ha hn, toNat_ofNat_of_lt_phaseDur hc hp hn]
    exact lastPosition_succ s.cfg s.phase s.t.toNat
  · have hlast : phaseDur s.cfg s.phase - 1 = s.t.toNat := by omega
    rw [iteration_ok_last s.phase s ha hn, ← hlast]
    exact lastPosition_nextPhase s.cfg hp

/-- The rows that leave yaw as they find it. -/
def KeepsYaw (p : Phase) : Prop :=
  p = .throttleRampUp ∨ p = .throttleHold ∨ p = .throttleRampDown ∨ p = .throttleFloorHold

theorem yaw_actedBank_of_keeps {s : State} (hc : s.cfg.Legal) {p : Phase} (h : KeepsYaw p) :
    chan (actedBank p s) s.cfg.yaw = chan s.ch s.cfg.yaw := by
  have hne := (throttle_ne_yaw hc).symm
  apply chan_bankSetAll_of_not_mem
  obtain rfl | rfl | rfl | rfl := h <;> simp [phaseWrites, hne]

/-- The other rows write the yaw the table of 10_state R35 gives. -/
theorem yaw_actedBank {s : State} (hc : s.cfg.Legal) {p : Phase} (hp : p ≠ .done) (h : ¬ KeepsYaw p) :
    chan (actedBank p s) s.cfg.yaw = runYaw p := by
  cases p with
  | neutral =>
    obtain ⟨-, -, -, hyaw, -⟩ := rolesAfter_actedBank_neutral hc 0
    exact hyaw
  | arming => rw [chan_actedBank_arming, if_pos rfl]; rfl
  | armedHold => rw [chan_actedBank_armedHold, if_pos rfl]; rfl
  | throttleRampUp => exact absurd (.inl rfl) h
  | throttleHold => exact absurd (.inr (.inl rfl)) h
  | throttleRampDown => exact absurd (.inr (.inr (.inl rfl))) h
  | throttleFloorHold => exact absurd (.inr (.inr (.inr rfl))) h
  | disarming => rw [chan_actedBank_disarming, if_pos rfl]; rfl
  | disarmedHold => rw [chan_actedBank_disarmedHold, if_pos rfl]; rfl
  | done => exact absurd rfl hp

/-- After Neutral a row writes throttle and yaw alone. -/
theorem chan_actedBank_other {s : State} {p : Phase} (hp : p ≠ .neutral) {k : Fin 16} (ht : k ≠ s.cfg.throttle)
    (hy : k ≠ s.cfg.yaw) : chan (actedBank p s) k = chan s.ch k := by
  apply chan_bankSetAll_of_not_mem
  cases p
  case neutral => exact absurd rfl hp
  all_goals simp [phaseWrites, ht, hy]

theorem lastPosition_isSome (c : Config) {p : Phase} (hp : p ≠ .neutral) (n : Nat) :
    ∃ q, q ∈ lastPosition c p n := by
  cases n with
  | zero =>
    cases p
    case neutral => exact absurd rfl hp
    all_goals exact ⟨_, rfl⟩
  | succ n => exact ⟨_, lastPosition_succ c p n⟩

/-- A row that keeps the throttle finds the table's value: that of the phase before is the same. -/
theorem runThrottle_lastPosition {c : Config} {p : Phase} (h : KeepsThrottle p) {n : Nat} {q : Phase × Nat}
    (hq : q ∈ lastPosition c p n) : runThrottle q.1 q.2 = runThrottle p n := by
  cases n with
  | zero => obtain rfl | rfl := h <;> cases hq <;> rfl
  | succ n =>
    rw [lastPosition_succ] at hq
    cases hq
    obtain rfl | rfl := h <;> rfl

theorem runYaw_lastPosition {c : Config} {p : Phase} (h : KeepsYaw p) {n : Nat} {q : Phase × Nat}
    (hq : q ∈ lastPosition c p n) : runYaw q.1 = runYaw p := by
  cases n with
  | zero => obtain rfl | rfl | rfl | rfl := h <;> cases hq <;> rfl
  | succ n =>
    rw [lastPosition_succ] at hq
    cases hq
    rfl

/-- A row leaves the role channels as the table of 10_state R35 says: Neutral writes all six, and a later row writes the
table's throttle and yaw or keeps them. -/
theorem rolesAfter_actedBank {s : State} (hc : s.cfg.Legal) (ht : s.t.toNat < phaseDur s.cfg s.phase)
    (hb : BankFollowsPosition s) : RolesAfter s.cfg (actedBank s.phase s) s.phase s.t.toNat := by
  by_cases hp : s.phase = .neutral
  · rw [hp]
    exact rolesAfter_actedBank_neutral hc s.t.toNat
  have hdone : s.phase ≠ .done := fun hd => Nat.not_lt_zero _ (hd ▸ ht : s.t.toNat < phaseDur s.cfg .done)
  obtain ⟨q, hq⟩ := lastPosition_isSome s.cfg hp s.t.toNat
  obtain ⟨hroll, hpitch, hthr, hyaw, haux1, haux2⟩ := hb q hq
  have hroles := hc.1
  simp only [Config.roles, List.nodup_cons, List.mem_cons, List.not_mem_nil, or_false, not_or] at hroles
  obtain ⟨⟨-, hrt, hry, -⟩, ⟨hpt, hpy, -⟩, ⟨-, ht1, ht2⟩, ⟨hy1, hy2⟩, -⟩ := hroles
  refine ⟨?_, ?_, ?_, ?_, ?_, ?_⟩
  · rw [chan_actedBank_other hp hrt hry, hroll]
  · rw [chan_actedBank_other hp hpt hpy, hpitch]
  · by_cases hk : KeepsThrottle s.phase
    · rw [throttle_actedBank_of_keeps hc hk, hthr, runThrottle_lastPosition hk hq]
    · exact throttle_actedBank hc ht hk
  · by_cases hk : KeepsYaw s.phase
    · rw [yaw_actedBank_of_keeps hc hk, hyaw, runYaw_lastPosition hk hq]
    · exact yaw_actedBank hc hdone hk
  · rw [chan_actedBank_other hp (Ne.symm ht1) (Ne.symm hy1), haux1]
  · rw [chan_actedBank_other hp (Ne.symm ht2) (Ne.symm hy2), haux2]

theorem bankFollowsPosition_iteration {s : State} (hc : s.cfg.Legal) (hpos : PositionLegal s) (hp : s.phase ≠ .done)
    (ha : s.txFail = false) (hb : BankFollowsPosition s) : BankFollowsPosition (iteration s.phase s) := by
  intro q hq
  rw [iteration_cfg, lastPosition_iteration hc hpos hp ha] at hq
  cases hq
  rw [iteration_cfg, iteration_ch]
  exact rolesAfter_actedBank hc (hpos.1 hp) hb

/-- Answered fail the run is over, so the bank need not follow the position. -/
theorem runBankFollowsPosition_iteration {s : State} (hc : s.cfg.Legal) (hpos : PositionLegal s) (hr : IsRunning s)
    (hb : BankFollowsPosition s) : RunBankFollowsPosition (iteration s.phase s) := by
  cases ha : s.txFail with
  | true =>
    rw [iteration_fail s.phase s ha]
    exact fun hr' => absurd hr' (not_isRunning_of_fault rfl)
  | false => exact fun _ => bankFollowsPosition_iteration hc hpos hr.2.2 ha hb

/-- Only a core that is not running takes SET, and no tick lies behind START. -/
theorem exec_keeps_runBankFollowsPosition {i : Instr} {s t : State} (hs : CoreLegal s) (hb : RunBankFollowsPosition s)
    (h : exec i s = .next t) : RunBankFollowsPosition t := by
  obtain rfl | ⟨j, v, -, hn, rfl⟩ | ⟨-, o, rfl⟩ | ⟨-, hst, rfl⟩ | ⟨-, rfl⟩ | ⟨a, -, hr, rfl⟩ | ⟨-, hr, rfl⟩ :=
    exec_next_cases h
  · exact hb
  · exact fun hr => absurd hr hn
  · exact hb
  · obtain ⟨-, hp, ht⟩ := idle_of_not_started hs.run hst
    intro _ q hq
    simp [hp, ht, lastPosition] at hq
  · exact fun hr => absurd hr.1 Bool.false_ne_true
  · exact runBankFollowsPosition_iteration (s := s.latchAnswer a) hs.cfg hs.position hr (hb hr)
  · exact runBankFollowsPosition_iteration hs.cfg hs.position hr (hb hr)

/-- Settles O57, by `exec_keeps_runBankFollowsPosition` over legal states. -/
theorem everyStepKeepsTheBankAFunctionOfThePosition : Obligations.EveryStepKeepsTheBankAFunctionOfThePosition := by
  intro s t hc hrun hpos hb h
  exact step_keeps_of_coreLegal (P := RunBankFollowsPosition) (fun _ _ hs => hs)
    (fun _ _ _ => exec_keeps_runBankFollowsPosition) ⟨hc, hrun, hpos⟩ hb h

/-! ### The reset state -/

theorem configDefault_legal : Config.default.Legal := by
  decide

/-- Settles O52: the reset state is what RESET leaves, with an empty wire and a core that is not running. -/
theorem resetMeetsTheInvariants : Obligations.ResetMeetsTheInvariants := by
  obtain ⟨hc, hrun, hpos⟩ := coreLegal_resetCore (s := State.reset) configDefault_legal
  have hidle : ¬ IsRunning State.reset := fun hr => Bool.false_ne_true hr.1
  exact ⟨hc, bankInRange_reset, hrun, hpos, fun f hf => absurd hf List.not_mem_nil,
    ⟨fun f hf => absurd hf List.not_mem_nil, fun hr => absurd hr hidle⟩, fun hr => absurd hr hidle⟩

end Sys2Proof.Machine

/-! ## The bank and the codec: the laws of 40_channelbank R85 and 41_codec R92, R96, R97 -/

namespace Sys2Proof.Machine

/-! ### Two SETs (R85) -/

theorem bankSet_comm {i j : Int} (h : i ≠ j) (b : Bank) (v w : Int) :
    bankSet (bankSet b i v) j w = bankSet (bankSet b j w) i v := by
  apply bank_ext
  intro k
  simp only [chan_bankSet]
  by_cases hi : (k.val : Int) = i
  · have hj : (k.val : Int) ≠ j := fun hj => h (hi.symm.trans hj)
    rw [if_neg hj, if_pos hi, if_pos hi]
  · rw [if_neg hi, if_neg hi]

theorem clampRaw_eq_max_min (v : Int) : clampRaw v = max 172 (min v 1811) := by
  rw [clampRaw_eq]
  split_ifs <;> omega

theorem thenExec_set_set {s : State} (h : ¬ IsRunning s) (i j v w : Int) :
    thenExec (exec (.set i v) s) (.set j w) = .next { s with ch := bankSet (bankSet s.ch i v) j w } := by
  rw [exec_set_idle h]
  exact exec_set_idle (s := { s with ch := bankSet s.ch i v }) h j w

/-- Settles O13, from the same laws of the bank. -/
theorem setsCommuteAndTheLastWriteWins : Obligations.SetsCommuteAndTheLastWriteWins := by
  intro s i j v w hr
  refine ⟨fun hij => ?_, ?_, _, exec_set_idle hr i v, rfl, fun k => ?_⟩
  · rw [thenExec_set_set hr, thenExec_set_set hr, bankSet_comm hij]
  · rw [thenExec_set_set hr, exec_set_idle hr, bankSet_bankSet]
  · rw [← clampRaw_eq_max_min]
    exact chan_bankSet s.ch i v k

/-! ### A bit of a payload byte (R90) -/

/-- The field a payload bit belongs to. -/
def fieldAt (n : Nat) (h : n < 176) : Fin 16 := ⟨n / 11, by omega⟩

/-- Payload bit `8i + b` is bit `(8i + b) mod 11` of the masked input `(8i + b) div 11`. -/
theorem encodeFrame_payloadBit (s : Vector Int 16) {i b : Nat} (hi : i < 22) (hb : b < 8) :
    (encodeFrame s)[i + 1].getLsbD b =
      (maskField s[fieldAt (8 * i + b) (by omega)]).testBit ((8 * i + b) % 11) := by
  have hbit : 11 * (fieldAt (8 * i + b) (by omega)).val + (8 * i + b) % 11 = 8 * i + b := Nat.div_add_mod ..
  have h := encodeFrame_bit s (fieldAt (8 * i + b) (by omega)) ⟨(8 * i + b) % 11, Nat.mod_lt _ (by decide)⟩
  simp only [hbit] at h
  have hd : (8 * i + b) / 8 = i := by omega
  have hm : (8 * i + b) % 8 = b := by omega
  rw [hd, hm, List.getD_eq_getElem _ _ (by simp; omega), Vector.getElem_toList] at h
  exact h

/-- The start, flag and end bytes do not depend on the inputs. -/
theorem encodeFrame_get_fixed (s u : Vector Int 16) {n : Nat} (hn : n < 25) (h : n = 0 ∨ 22 < n) :
    (encodeFrame s)[n] = (encodeFrame u)[n] := by
  rw [encodeFrame, encodeFrame, frameOf_get, frameOf_get]
  obtain rfl | h := h
  · rfl
  · rw [if_neg (by omega), if_neg (by omega), if_neg (by omega), if_neg (by omega)]

/-- Settles O24: a payload bit that differs belongs to a field whose input differs, which is `k` alone. -/
theorem changingOneInputChangesOnlyItsField : Obligations.ChangingOneInputChangesOnlyItsField := by
  rintro s k v ⟨n, hn⟩ ⟨b, hb⟩ hne
  simp only [Fin.getElem_fin] at hne ⊢
  obtain ⟨i, rfl, hi⟩ : ∃ i, n = i + 1 ∧ i < 22 := by
    by_contra hno
    refine hne (congrArg (·.getLsbD b) (encodeFrame_get_fixed _ s hn ?_))
    by_contra hpay
    exact hno ⟨n - 1, by omega, by omega⟩
  rw [encodeFrame_payloadBit _ hi hb, encodeFrame_payloadBit _ hi hb] at hne
  have hk : k.val = (8 * i + b) / 11 := by
    by_contra hk
    refine hne (congrArg (fun x => (maskField x).testBit _) ?_)
    exact Vector.getElem_set_ne (h := hk) ..
  omega

/-- Settles O25: byte `i + 11` holds the same bits as byte `i`, eight fields further on. -/
theorem equalInputsGiveAPeriodicPayload : Obligations.EqualInputsGiveAPeriodicPayload := by
  refine ⟨fun s c hs i => BitVec.eq_of_getLsbD_eq fun b hb => ?_, by decide⟩
  have hmask (k : Fin 16) : maskField s[k] = c.toNat := by rw [maskField, hs k]
  have hmod : (8 * (i.val + 11) + b) % 11 = (8 * i.val + b) % 11 := by omega
  rw [encodeFrame_payloadBit s (i := i.val) (by omega) hb, encodeFrame_payloadBit s (i := i.val + 11) (by omega) hb,
    hmask, hmask, hmod]

/-! ### The byte table (R92) -/

section byteTable
variable {s : Vector Int 16} {c : Fin 16 → BitVec 11} (hc : ∀ k, ((c k).toNat : Int) = s[k] % 2048) (h : Fin 2)
  {x : Fin 8 → BitVec 11} (hx : ∀ j : Fin 8, x j = c ⟨8 * h.val + j.val, by omega⟩)
include hc hx

/-- Payload bit `8n + b` of a half is bit `r` of its field `j`, where `8n + b = 11j + r`. -/
theorem halfByte_getLsbD {n b r : Nat} (j : Fin 8) (hb : b < 8) (hr : r < 11) (hpos : 8 * n + b = 11 * j.val + r) :
    ((encodeFrame s).toList.getD (11 * h.val + (n + 1)) 0).getLsbD b = (x j).getLsbD r := by
  have hbit := encodeFrame_bit s ⟨8 * h.val + j.val, by omega⟩ ⟨r, hr⟩
  have hbyte : (11 * (8 * h.val + j.val) + r) / 8 + 1 = 11 * h.val + (n + 1) := by omega
  have hplace : (11 * (8 * h.val + j.val) + r) % 8 = b := by omega
  have hfield : maskField s[(⟨8 * h.val + j.val, by omega⟩ : Fin 16)] = (x j).toNat := by
    have := maskField_int s[(⟨8 * h.val + j.val, by omega⟩ : Fin 16)]
    rw [← hc, ← hx] at this
    exact_mod_cast this
  simp only [hbyte, hplace] at hbit
  rw [hbit, hfield, BitVec.testBit_toNat]

/-- A byte that lies within one field. -/
theorem halfByte_within {n o : Nat} (j : Fin 8) (ho : o + 8 ≤ 11) (hpos : 8 * n = 11 * j.val + o) :
    (encodeFrame s).toList.getD (11 * h.val + (n + 1)) 0 = (x j).extractLsb' o 8 := by
  apply BitVec.eq_of_getLsbD_eq
  intro b hb
  rw [halfByte_getLsbD hc h hx j hb (r := o + b) (by omega) (by omega), BitVec.getLsbD_extractLsb', decide_eq_true hb,
    Bool.true_and]

/-- A byte that begins in field `j`, whose last `w` bits it takes, and ends in field `j'`, the next one. -/
theorem halfByte_across {n o w v : Nat} (j j' : Fin 8) (hj : j'.val = j.val + 1) (ho : o + w = 11) (hv : w + v = 8)
    (hpos : 8 * n = 11 * j.val + o) :
    (encodeFrame s).toList.getD (11 * h.val + (n + 1)) 0 =
      ((x j).extractLsb' o w).setWidth 8 ||| ((x j').extractLsb' 0 v).setWidth 8 <<< w := by
  apply BitVec.eq_of_getLsbD_eq
  intro b hb
  by_cases hbw : b < w
  · rw [halfByte_getLsbD hc h hx j hb (r := o + b) (by omega) (by omega)]
    simp [hb, hbw]
  · rw [halfByte_getLsbD hc h hx j' hb (r := b - w) (by omega) (by omega)]
    have hlt : b - w < v := by omega
    simp [hb, hbw, hlt]

end byteTable

/-- Settles O20, each row by where its byte begins: within a field, or across two. -/
theorem encodeIsTheByteTable : Obligations.EncodeIsTheByteTable := by
  intro s c hc h x hx
  have within {n o : Nat} (j : Fin 8) (ho : o + 8 ≤ 11) (hpos : 8 * n = 11 * j.val + o) :=
    halfByte_within hc h hx j ho hpos
  have across {n o w v : Nat} (j j' : Fin 8) (hj : j'.val = j.val + 1) (ho : o + w = 11) (hv : w + v = 8)
    (hpos : 8 * n = 11 * j.val + o) := halfByte_across hc h hx j j' hj ho hv hpos
  exact ⟨within (n := 0) 0 (by decide) rfl, across (n := 1) 0 1 rfl rfl rfl rfl, across (n := 2) 1 2 rfl rfl rfl rfl,
    within (n := 3) 2 (by decide) rfl, across (n := 4) 2 3 rfl rfl rfl rfl, across (n := 5) 3 4 rfl rfl rfl rfl,
    across (n := 6) 4 5 rfl rfl rfl rfl, within (n := 7) 5 (by decide) rfl, across (n := 8) 5 6 rfl rfl rfl rfl,
    across (n := 9) 6 7 rfl rfl rfl rfl, within (n := 10) 7 (by decide) rfl⟩

end Sys2Proof.Machine

/-! ## The sequencer: TICK, the rows that move the indicator, Done, and who writes what (spec/42_sequencer.md R103 to
R115, spec/10_state.md R24, R27) -/

namespace Sys2Proof.Machine

/-- Settles O28, by `exec_tick_eq_row`, and by `rowTick_other` for a row that is not selected. -/
theorem tickPerformsTheSelectedRow : Obligations.TickPerformsTheSelectedRow := by
  refine ⟨fun s a hr => exec_tick_eq_row hr a, fun s p h => ?_⟩
  rw [exec_row, rowTick_other (not_and_or.2 h)]

/-- Settles O29: TICK runs the iteration through the selected row on its answer. -/
theorem tickIsOneIterationOfTheSendLoop : Obligations.TickIsOneIterationOfTheSendLoop := by
  intro s hr
  refine ⟨⟨ledAfter s.cfg s.phase s.t.toNat s.led, ?_⟩, exec_tick_fail hr⟩
  rw [exec_tick_running hr, iteration_ok s.phase (s.latchAnswer .ok) rfl, ofNat_toNat_add_one, ite_not, ite_not]
  rfl

/-! ### The rows that move the indicator (R105, R109) -/

theorem restRoles_of_roles {c : Config} (h : c.roles = [0, 1, 2, 3, 4, 5]) :
    c.roll = 0 ∧ c.pitch = 1 ∧ c.aux1 = 4 ∧ c.aux2 = 5 := by
  simp_all [Config.roles]

/-- Settles O30: the six role channels by `rolesAfter_actedBank_neutral`, any other by not being one. -/
theorem neutralRowActs : Obligations.NeutralRowActs := by
  refine phaseRowActs_and_submits (p := .neutral) _ encodeFrame_runSnapshot_neutral (fun _ => rfl) (fun s hc _ k => ?_)
    (fun c _ hr => ?_)
  · obtain ⟨hroll, hpitch, hthr, hyaw, haux1, haux2⟩ := rolesAfter_actedBank_neutral hc 0
    split_ifs with h0 h1 h2 h3 h4 h5
    · rw [h0, hroll, Option.getD_some]
    · rw [h1, hpitch, Option.getD_some]
    · rw [h2, hthr, Option.getD_some, runThrottle]
    · rw [h3, hyaw, Option.getD_some, runYaw]
    · rw [h4, haux1, Option.getD_some]
    · rw [h5, haux2, Option.getD_some]
    · exact chan_actedBank_of_not_role s k .neutral (by simp [Config.roles, *])
  · obtain ⟨h0, h1, h4, h5⟩ := restRoles_of_roles hr
    simp only [throttle_of_roles hr, yaw_of_roles hr, h0, h1, h4, h5]
    decide

/-- Settles O34: throttle alone is written, so the yaw of the frame is the one held before. -/
theorem throttleHoldRowActs : Obligations.ThrottleHoldRowActs := by
  refine phaseRowActs_and_submits (p := .throttleHold) (runSnapshot 1400 992) (by decide) (fun _ => rfl)
    (fun s _ _ k => ?_) (fun c _ hr => ?_)
  · rw [chan_actedBank_throttleHold]
    split_ifs <;> rfl
  · simp only [throttle_of_roles hr]
    decide

/-! ### Who writes the bank (10_state R24) -/

theorem getElem_eq_of_chan_eq {b b' : Bank} {k : Fin 16} (h : chan b k = chan b' k) : b[k] = b'[k] := by
  rw [chan_eq, chan_eq] at h
  exact BitVec.eq_of_toNat_eq (by exact_mod_cast h)

theorem iteration_ch_of_not_role (p : Phase) (s : State) {k : Fin 16} (hk : k ∉ s.cfg.roles) :
    (iteration p s).ch[k] = s.ch[k] := by
  rw [iteration_ch]
  exact getElem_eq_of_chan_eq (chan_actedBank_of_not_role s k p hk)

/-- Settles O42: a TICK and a row are an iteration or nothing, and an iteration writes role channels only. -/
theorem tickWritesRoleChannelsOnly : Obligations.TickWritesRoleChannelsOnly := by
  refine ⟨fun s t a k hk h => ?_, fun s t p k hk h => ?_, fun s k v hr hlo hhi => ⟨_, exec_set_idle hr k.val v, ?_⟩⟩
  · by_cases hr : IsRunning s
    · rw [exec_tick_running hr] at h
      injection h with h
      rw [← h]
      exact iteration_ch_of_not_role s.phase (s.latchAnswer a) hk
    · rw [exec_tick_idle hr] at h
      injection h with h
      rw [h]
  · rw [exec_row] at h
    injection h with h
    by_cases hp : IsRunning s ∧ s.phase = p
    · rw [← h, rowTick_selected hp.1 hp.2]
      exact iteration_ch_of_not_role p s hk
    · rw [← h, rowTick_other hp]
  · calc
      chan (bankSet s.ch k.val v) k = clampRaw v := by rw [chan_bankSet, if_pos rfl]
      _ = v := clampRaw_of_mem hlo hhi

/-! ### Who writes the run state (10_state R27, 70_reset R161) -/

@[simp] theorem iteration_started (p : Phase) (s : State) : (iteration p s).started = s.started := by
  obtain ⟨-, h⟩ | ⟨-, -, h⟩ | ⟨-, -, h⟩ := iteration_cases p s <;> rw [h]

@[simp] theorem iteration_txFail (p : Phase) (s : State) : (iteration p s).txFail = s.txFail := by
  obtain ⟨-, h⟩ | ⟨-, -, h⟩ | ⟨-, -, h⟩ := iteration_cases p s <;> rw [h]

/-- An iteration raises `fault` exactly when its frame is answered fail (60_exceptions R143). -/
theorem iteration_fault (p : Phase) (s : State) : (iteration p s).fault = (s.fault || s.txFail) := by
  obtain ⟨ha, h⟩ | ⟨ha, -, h⟩ | ⟨ha, -, h⟩ := iteration_cases p s <;> simp [h, ha]

theorem exec_reset_next {s t : State} (h : exec .reset s = .next t) : t = resetCore s := by
  rw [exec_reset] at h
  injection h with h
  exact h.symm

theorem exec_started_ne {i : Instr} {s t : State} (h : exec i s = .next t) (hst : t.started ≠ s.started) :
    (i = .start ∧ s.started = false) ∨ i = .reset := by
  obtain rfl | ⟨j, v, -, -, rfl⟩ | ⟨-, o, rfl⟩ | ⟨hi, hs, -⟩ | ⟨hi, -⟩ | ⟨a, -, -, rfl⟩ | ⟨-, -, rfl⟩ :=
    exec_next_cases h
  · exact absurd rfl hst
  · exact absurd rfl hst
  · exact absurd rfl hst
  · exact .inl ⟨hi, hs⟩
  · exact .inr hi
  · exact absurd (iteration_started s.phase (s.latchAnswer a)) hst
  · exact absurd (iteration_started s.phase s) hst

/-- The fault flag changes by RESET, or rises where a frame of the running core is answered fail. -/
theorem exec_fault_ne {i : Instr} {s t : State} (h : exec i s = .next t) (hf : t.fault ≠ s.fault) :
    i = .reset ∨ (t.fault = true ∧ IsRunning s ∧ t.txFail = true ∧
      (i = .tick .fail ∨ (i = s.phase.instr ∧ s.txFail = true))) := by
  obtain rfl | ⟨j, v, -, -, rfl⟩ | ⟨-, o, rfl⟩ | ⟨-, -, rfl⟩ | ⟨hi, -⟩ | ⟨a, hi, hr, rfl⟩ | ⟨hi, hr, rfl⟩ :=
    exec_next_cases h
  · exact absurd rfl hf
  · exact absurd rfl hf
  · exact absurd rfl hf
  · exact absurd rfl hf
  · exact .inl hi
  · rw [iteration_fault, latchAnswer_fault] at hf
    cases a with
    | ok => exact absurd (Bool.or_false s.fault) hf
    | fail => exact .inr ⟨by simp [iteration_fault], hr, by simp, .inl hi⟩
  · rw [iteration_fault] at hf
    cases ha : s.txFail with
    | false => exact absurd (by rw [ha, Bool.or_false]) hf
    | true => exact .inr ⟨by simp [iteration_fault, ha], hr, by simp [ha], .inr ⟨hi, rfl⟩⟩

/-- The successor of a position lies after it: in the same phase by the count, else by the code, which does not wrap. -/
theorem code_le_of_positionAdvanced {s t : State} (hp : s.phase ≠ .done) (h : PositionAdvanced s t) :
    s.phase.code.toNat ≤ t.phase.code.toNat ∧ (t.phase = s.phase → s.t.toNat ≤ t.t.toNat) := by
  obtain ⟨-, hph, ht⟩ | ⟨-, hph, -⟩ := h
  · exact ⟨by rw [hph], fun _ => by omega⟩
  · have hlt : s.phase.code.toNat < t.phase.code.toNat := by
      rw [hph]
      generalize s.phase = p at hp
      cases p
      case done => exact absurd rfl hp
      all_goals decide
    exact ⟨hlt.le, fun heq => absurd hlt (by rw [heq]; exact lt_irrefl _)⟩

/-- Settles O44, by `exec_started_ne`, `exec_fault_ne` and `exec_position`. -/
theorem onlyResetClearsStartedAndFault : Obligations.OnlyResetClearsStartedAndFault := by
  intro i s t hc hpos h
  refine ⟨fun hi => ⟨fun hs => ?_, fun hf => ?_, ?_⟩, fun hs ht => ?_, fun hf ht => ?_⟩
  · by_contra ht
    obtain ⟨-, hs'⟩ | hr := exec_started_ne h fun heq => ht (heq.trans hs)
    · exact absurd (hs.symm.trans hs') (by decide)
    · exact hi hr
  · by_contra ht
    obtain hr | ⟨hf', -⟩ := exec_fault_ne h fun heq => ht (heq.trans hf)
    · exact hi hr
    · exact ht hf'
  · obtain ⟨hph, ht, -⟩ | ⟨hr, -, hadv⟩ := exec_position hc hpos hi h
    · exact ⟨by rw [hph], fun _ => by rw [ht]⟩
    · exact code_le_of_positionAdvanced hr.2.2 hadv
  · obtain ⟨hi, -⟩ | rfl := exec_started_ne h (by simp [hs, ht])
    · exact hi
    · obtain rfl := exec_reset_next h
      cases ht
  · obtain rfl | ⟨-, hr, htx, hi⟩ := exec_fault_ne h (by simp [hf, ht])
    · obtain rfl := exec_reset_next h
      cases ht
    · exact ⟨hr, htx, hi⟩

end Sys2Proof.Machine

/-! ## Done, the fault state, and one step on the pending events (spec/42_sequencer.md R115, spec/60_exceptions.md R144,
R145, R149, R156) -/

namespace Sys2Proof.Machine

/-- While the core is not running no operation but RESET moves the position. -/
theorem exec_position_of_idle {i : Instr} {s t : State} (hr : ¬ IsRunning s) (hi : i ≠ .reset)
    (h : exec i s = .next t) : t.phase = s.phase ∧ t.t = s.t := by
  obtain rfl | ⟨j, v, -, -, rfl⟩ | ⟨-, o, rfl⟩ | ⟨-, -, rfl⟩ | ⟨hi', -⟩ | ⟨a, -, hr', -⟩ | ⟨-, hr', -⟩ :=
    exec_next_cases h
  · exact ⟨rfl, rfl⟩
  · exact ⟨rfl, rfl⟩
  · exact ⟨rfl, rfl⟩
  · exact ⟨rfl, rfl⟩
  · exact absurd hi' hi
  · exact absurd hr' hr
  · exact absurd hr' hr

/-- Settles O39: in Done the core is not running. -/
theorem doneIsTerminal : Obligations.DoneIsTerminal := by
  refine ⟨decodePhase_code .done, fun _ => rfl, fun s hp ht => ?_⟩
  have hr : ¬ IsRunning s := (not_isRunning_iff s).2 (.inr (.inl hp))
  refine ⟨exec_tick_idle hr, fun i t hi h => ?_, fun j v => ⟨_, exec_set_idle hr j v⟩⟩
  obtain ⟨hp', ht'⟩ := exec_position_of_idle hr hi h
  exact ⟨hp'.trans hp, ht'.trans ht⟩

theorem started_of_fault {s : State} (h : RunStateLegal s) (hf : s.fault = true) : s.started = true := by
  by_contra hs
  obtain ⟨hf', -⟩ := idle_of_not_started h (Bool.not_eq_true _ ▸ hs)
  exact absurd (hf.symm.trans hf') (by decide)

/-- Settles O49: with `fault` raised the core has been started and is not running. -/
theorem afterAFaultOnlyResetStartsAgain : Obligations.AfterAFaultOnlyResetStartsAgain := by
  intro s hf hrun
  have hr := not_isRunning_of_fault hf
  refine ⟨exec_tick_idle hr, exec_start_started (started_of_fault hrun hf), rfl, fun i hi => ?_, exec_get_mem s,
    fun j v => ⟨_, exec_set_idle hr j v⟩, fun i t h hi => ?_, _, exec_reset s, rfl, rfl⟩
  · obtain rfl | rfl := List.mem_pair.1 hi
    · exact ⟨_, rfl⟩
    · exact ⟨_, rfl⟩
  · by_contra ht
    obtain hreset | ⟨ht', -⟩ := exec_fault_ne h fun heq => ht (heq.trans hf)
    · exact hi hreset
    · exact ht ht'

/-! ### One step -/

/-- Settles O7, by `step_event`. -/
theorem stepRunsTheDecodedEvent : Obligations.StepRunsTheDecodedEvent := fun _ _ _ _ he hd => step_event he hd

theorem step_waiting {s : State} (h : s.events = []) : step s = .next s := by
  simp [step, takeEvent, h]

/-- Settles O8: a waiting step completes, so the hardware drops nothing. -/
theorem stepWithoutEventWaits : Obligations.StepWithoutEventWaits := by
  intro s h
  have hs := step_waiting h
  exact ⟨hs, by rw [hardwareStep, hs]⟩

theorem words_of_not_rst {p : Pins} (h : p.rst = false) :
    p.words = (if p.tick then [cmdWord 0x6 0 0 (if p.txFail then 1 else 0)] else []) ++
      (if p.cmdValid then [p.cmd] else []) := by
  rw [Pins.words, h]
  rfl

/-- The word the pins present for TICK (30_encoding R67). -/
theorem cmdWord_tick (b : Bool) : cmdWord 0x6 0 0 (if b then 1 else 0) = if b then 0x60000001 else 0x60000000 := by
  cases b <;> rfl

/-- Settles O9: RESET is taken alone, else the TICK word comes before the command. -/
theorem presentedTogetherResetThenTickThenCommand : Obligations.PresentedTogetherResetThenTickThenCommand := by
  intro s p
  refine ⟨fun hrst => ?_, fun hrst ht hc => ?_, fun hrst ht hc => ?_, fun hrst ht hc => ?_, fun hrst ht hc => ?_⟩
  · rw [present_events, words_of_rst hrst, cmdWord_reset]
  · rw [present_events, words_of_not_rst hrst, ht, hc, cmdWord_tick]
    rfl
  · rw [present_events, words_of_not_rst hrst, ht, hc, cmdWord_tick]
    rfl
  · rw [present_events, words_of_not_rst hrst, ht, hc]
    rfl
  · have hnone : s.events ++ p.words = s.events := by
      rw [words_of_not_rst hrst, ht, hc]
      exact List.append_nil _
    rw [State.present, hnone]

end Sys2Proof.Machine

/-! ## A whole run (spec/42_sequencer.md R116, R118, spec/10_state.md R36) -/

namespace Sys2Proof.Machine

/-! ### The ticks of a run with RAMP_N = 246 -/

theorem firstTick_nextPhase {c : Config} (hN : c.rampN = 246) {p : Phase} (hp : p ≠ .done) :
    firstTick (nextPhase p) = firstTick p + phaseDur c p := by
  cases p
  case done => exact absurd rfl hp
  all_goals simp [firstTick, nextPhase, phaseDur, hN]

theorem firstTick_le (p : Phase) : firstTick p ≤ 3250 := by
  cases p <;> decide

theorem ne_done_of_elapsed_lt {s : State} (h : elapsed s < 3250) : s.phase ≠ .done := by
  intro hp
  rw [elapsed, hp, firstTick] at h
  omega

/-- Before Done fewer than 3250 ticks lie behind a legal position. -/
theorem done_of_elapsed {s : State} (hN : s.cfg.rampN = 246) (hpos : PositionLegal s) (h : elapsed s = 3250) :
    s.phase = .done := by
  by_contra hp
  have ht := hpos.1 hp
  have hnext := firstTick_nextPhase hN hp
  have hle := firstTick_le (nextPhase s.phase)
  rw [elapsed] at h
  omega

/-- The range of tick numbers of a phase (R116), in which the wire's table has one line for it (R118). -/
theorem tick_range {c : Config} (hN : c.rampN = 246) {p : Phase} {n : Nat} (hn : n < phaseDur c p) :
    p ≠ .done ∧ firstTick p + n < firstTick (nextPhase p) := by
  have hp : p ≠ .done := by
    rintro rfl
    exact Nat.not_lt_zero _ hn
  rw [firstTick_nextPhase hN hp]
  exact ⟨hp, Nat.add_lt_add_left hn _⟩

/-- The wire's throttle table lists the throttle of each position (R118, 10_state R35). -/
theorem wireThrottle_firstTick {c : Config} (hN : c.rampN = 246) {p : Phase} {n : Nat} (hn : n < phaseDur c p) :
    (wireThrottle (firstTick p + n) : Int) = runThrottle p n := by
  obtain ⟨hp, hlt⟩ := tick_range hN hn
  generalize hj : firstTick p + n = j at hlt
  cases p
  case done => exact absurd rfl hp
  all_goals
    simp only [firstTick, nextPhase] at hj hlt
    rw [wireThrottle, runThrottle]
    split_ifs <;> omega

theorem wireYaw_firstTick {c : Config} (hN : c.rampN = 246) {p : Phase} {n : Nat} (hn : n < phaseDur c p) :
    (wireYaw (firstTick p + n) : Int) = runYaw p := by
  obtain ⟨hp, hlt⟩ := tick_range hN hn
  generalize hj : firstTick p + n = j at hlt
  cases p
  case done => exact absurd rfl hp
  all_goals
    simp only [firstTick, nextPhase] at hj hlt
    rw [wireYaw, runYaw]
    split_ifs <;> omega

/-! ### One tick of a run -/

/-- The state of a run with RAMP_N = 246 after `j` ticks answered ok. -/
structure OnRun (j : Nat) (s : State) : Prop where
  cfg : s.cfg.Legal
  rampN : s.cfg.rampN = 246
  started : s.started = true
  fault : s.fault = false
  position : PositionLegal s
  bank : BankFollowsPosition s
  elapsed : elapsed s = j

/-- The frame of tick `j` of a run carries the throttle and yaw of the table (R118). -/
def RunFrame (c : Config) (j : Nat) (f : Frame) : Prop :=
  unpackField f c.throttle.val = wireThrottle j ∧ unpackField f c.yaw.val = wireYaw j

/-- The run starts at the position `(Neutral, 0)`, behind which no tick lies. -/
theorem onRun_start {s : State} (hc : s.cfg.Legal) (hN : s.cfg.rampN = 246) (hs : s.started = true)
    (hf : s.fault = false) (hp : s.phase = .neutral) (ht : s.t = 0) : OnRun 0 s where
  cfg := hc
  rampN := hN
  started := hs
  fault := hf
  position := by
    rw [PositionLegal, hp, ht]
    exact ⟨fun h => (phaseDur_bounds hc h).1, fun _ => rfl⟩
  bank := by
    intro q hq
    simp [hp, ht, lastPosition] at hq
  elapsed := by
    rw [Machine.elapsed, hp, ht]
    rfl

theorem elapsed_iteration {s : State} (hc : s.cfg.Legal) (hN : s.cfg.rampN = 246) (hpos : PositionLegal s)
    (hp : s.phase ≠ .done) (ha : s.txFail = false) : elapsed (iteration s.phase s) = elapsed s + 1 := by
  by_cases hn : s.t.toNat + 1 < phaseDur s.cfg s.phase
  · rw [iteration_ok_stay s.phase s ha hn, elapsed, toNat_ofNat_of_lt_phaseDur hc hp hn]
    rfl
  · rw [iteration_ok_last s.phase s ha hn]
    change firstTick (nextPhase s.phase) + 0 = firstTick s.phase + s.t.toNat + 1
    have ht := hpos.1 hp
    have hnext := firstTick_nextPhase hN hp
    omega

section OnRun
variable {j : Nat} {s : State}

theorem OnRun.running (h : OnRun j s) (hj : j < 3250) : IsRunning s :=
  ⟨h.started, h.fault, ne_done_of_elapsed_lt (by rw [h.elapsed]; exact hj)⟩

theorem OnRun.iteration (h : OnRun j s) (hj : j < 3250) (ha : s.txFail = false) :
    OnRun (j + 1) (iteration s.phase s) := by
  have hp := (h.running hj).2.2
  exact {
    cfg := by rw [iteration_cfg]; exact h.cfg
    rampN := by rw [iteration_cfg]; exact h.rampN
    started := by rw [iteration_started]; exact h.started
    fault := by rw [iteration_fault, h.fault, ha]; rfl
    position := positionLegal_iteration h.cfg h.position hp
    bank := bankFollowsPosition_iteration h.cfg h.position hp ha h.bank
    elapsed := by rw [elapsed_iteration h.cfg h.rampN h.position hp ha, h.elapsed] }

/-- The frame of a tick carries the throttle and yaw of its position. -/
theorem OnRun.runFrame (h : OnRun j s) (hj : j < 3250) : RunFrame s.cfg j (actedFrame s.phase s) := by
  have ht := h.position.1 (h.running hj).2.2
  obtain ⟨-, -, hthr, hyaw, -⟩ := rolesAfter_actedBank h.cfg ht h.bank
  have hwt := wireThrottle_firstTick h.rampN ht
  have hwy := wireYaw_firstTick h.rampN ht
  have hj' : firstTick s.phase + s.t.toNat = j := h.elapsed
  rw [hj'] at hwt hwy
  have hft := unpackField_actedFrame s.phase s s.cfg.throttle
  have hfy := unpackField_actedFrame s.phase s s.cfg.yaw
  exact ⟨by omega, by omega⟩

end OnRun

/-! ### A run of ticks -/

/-- `t` is reached from the state `s` after `j` ticks of a run by the ticks that sent the frames `fs`. -/
structure RunTo (j : Nat) (s : State) (fs : List Frame) (t : State) : Prop where
  onRun : OnRun (j + fs.length) t
  cfg : t.cfg = s.cfg
  wire : t.wire = s.wire ++ fs
  frames : ∀ (i : Nat) (f : Frame), fs[i]? = some f → RunFrame s.cfg (j + i) f
  others : ∀ k : Fin 16, k ∉ s.cfg.roles → t.ch[k] = s.ch[k]

theorem RunTo.nil {j : Nat} {s : State} (h : OnRun j s) : RunTo j s [] s where
  onRun := h
  cfg := rfl
  wire := (List.append_nil _).symm
  frames := fun i f hf => by simp at hf
  others := fun _ _ => rfl

theorem core_run_step {s t : State} (h : step s = .next t) (k : Nat) :
    Sys2Proof.core.run (k + 1) s = Sys2Proof.core.run k t := by
  have hcore : Sys2Proof.core.step s = .next t := h
  simp only [Host.Core.run, hcore]

theorem step_okTick {s : State} {k : Nat} {rest : List CmdWord} (he : s.events = okTicks (k + 1) rest)
    (hr : IsRunning s) :
    step s = .next (iteration s.phase { s with events := okTicks k rest, out := .idle, txFail := false }) := by
  rw [step_event he (decodeCmd_tick_ok s.cfg)]
  exact exec_tick_running (s := { s with events := okTicks k rest, out := .idle }) hr .ok

/-- One tick before the others. -/
theorem RunTo.cons {j : Nat} {s u t : State} {f : Frame} {fs : List Frame} (h : RunTo (j + 1) u fs t)
    (hcfg : u.cfg = s.cfg) (hwire : u.wire = s.wire ++ [f]) (hf : RunFrame s.cfg j f)
    (hothers : ∀ k : Fin 16, k ∉ s.cfg.roles → u.ch[k] = s.ch[k]) : RunTo j s (f :: fs) t where
  onRun := by
    rw [List.length_cons, Nat.add_comm fs.length, ← Nat.add_assoc]
    exact h.onRun
  cfg := h.cfg.trans hcfg
  wire := by rw [h.wire, hwire, List.append_assoc, List.singleton_append]
  frames := by
    intro i g hg
    cases i with
    | zero =>
      cases hg
      exact hf
    | succ i =>
      have hrest := h.frames i g hg
      rw [hcfg] at hrest
      rw [Nat.add_comm i, ← Nat.add_assoc]
      exact hrest
  others := fun k hk => (h.others k (hcfg ▸ hk)).trans (hothers k hk)

/-- `k` TICK events answered ok are `k` ticks of the run, as long as it lasts. -/
theorem run_okTicks {k : Nat} : ∀ {j : Nat} {s : State} {rest : List CmdWord}, OnRun j s → j + k ≤ 3250 →
    s.events = okTicks k rest →
    ∃ (t : State) (fs : List Frame), Sys2Proof.core.run k s = .next t ∧ RunTo j s fs t ∧ fs.length = k ∧
      t.events = rest := by
  induction k with
  | zero => exact fun {j s rest} h _ he => ⟨s, [], rfl, RunTo.nil h, rfl, he⟩
  | succ k ih =>
    intro j s rest h hj he
    have hlt : j < 3250 := by omega
    have htick : OnRun j { s with events := okTicks k rest, out := .idle, txFail := false } :=
      ⟨h.cfg, h.rampN, h.started, h.fault, h.position, h.bank, h.elapsed⟩
    obtain ⟨t, fs, hrun, hto, hlen, hrest⟩ := ih (htick.iteration hlt rfl) (by omega) (iteration_events _ _)
    refine ⟨t, actedFrame s.phase s :: fs, ?_, ?_, ?_, hrest⟩
    · rw [core_run_step (step_okTick he (h.running hlt)), hrun]
    · exact hto.cons (iteration_cfg _ _) (iteration_wire _ _) (h.runFrame hlt)
        fun i hi => iteration_ch_of_not_role s.phase _ hi
    · rw [List.length_cons, hlen]

/-- At the end of a run the position is `(Done, 0)`. -/
theorem OnRun.done {s : State} (h : OnRun 3250 s) : s.phase = .done ∧ s.t = 0 := by
  have hp := done_of_elapsed h.rampN h.position h.elapsed
  exact ⟨hp, h.position.2 hp⟩

/-- Settles O58, by `run_okTicks` from the start of the run. -/
theorem positionCountsTheTicksOfTheRun : Obligations.PositionCountsTheTicksOfTheRun := by
  intro s k rest hc hN hk hs hf hp ht he
  obtain ⟨t, fs, hrun, hto, rfl, hrest⟩ := run_okTicks (onRun_start hc hN hs hf hp ht) (by omega) he
  have hend := hto.onRun
  rw [Nat.zero_add] at hend
  exact ⟨t, hrun, hend.started, hend.fault, hend.elapsed, hend.position, hrest,
    by rw [hto.wire, List.length_append], fun h => (h ▸ hend).done.1⟩

/-- Settles O60, by `run_okTicks`: its frames are those of the table from tick 0 on. -/
theorem wireOfACompleteRunFollowsTheTable : Obligations.WireOfACompleteRunFollowsTheTable := by
  intro s rest hc hN hs hf hp ht he
  obtain ⟨t, fs, hrun, hto, hlen, -⟩ := run_okTicks (onRun_start hc hN hs hf hp ht) (by decide) he
  refine ⟨t, fs, hrun, hto.wire, hlen, fun j f hj => ?_⟩
  have hframe := hto.frames j f hj
  rwa [Nat.zero_add] at hframe

/-- Settles O59: START, then `run_okTicks`; in Done the role channels are those of the last tick. -/
theorem completeRunEndsInTheRestingState : Obligations.CompleteRunEndsInTheRestingState := by
  intro s rest hc hN hs hf hp ht he
  have hstart : step s = .next (State.markStarted { s with events := okTicks 3250 rest, out := .idle }) := by
    rw [step_event he (decodeCmd_start s.cfg)]
    exact exec_start_idle (s := { s with events := okTicks 3250 rest, out := .idle }) hs
  obtain ⟨t, fs, hrun, hto, hlen, -⟩ := run_okTicks (k := 3250)
    (onRun_start (s := State.markStarted { s with events := okTicks 3250 rest, out := .idle }) hc hN rfl hf hp ht)
    (by decide) rfl
  have hend := hto.onRun
  rw [hlen, Nat.zero_add] at hend
  obtain ⟨hdone, hzero⟩ := hend.done
  have hroles : RolesAfter t.cfg t.ch .disarmedHold 69 := hend.bank (.disarmedHold, 69) (by rw [hdone, hzero]; rfl)
  rw [hto.cfg] at hroles
  refine ⟨t, (core_run_step hstart 3250).trans hrun, hdone, hzero, hend.started, hend.fault, ?_, hroles, hto.others⟩
  rw [State.framesSent, hto.wire, List.length_append, hlen]
  rfl

end Sys2Proof.Machine
